-- ==== Sys2Proof/Word.lean ====
section
/-! DEFINITION. The word types of CORE: the byte, the 1-bit command word and the 1-bit status. -/

namespace Sys2Proof

/-- A byte is 8 bits, its value a number 0..255 (R9, R40). -/
abbrev Byte := BitVec 8

/-- The command word: the 1-bit field `OP` (R60, R61). -/
abbrev OpWord := BitVec 1

/-- The 1-bit field `STATUS` of a response (R63, R64). -/
abbrev StatusBit := BitVec 1

end Sys2Proof
end

