-- ==== Sys2Proof/Config.lean ====
section
/-! DEFINITION. The hardwired constants of the padding scheme (R6, R31): read-only, the same in every
instance, the same before and after reset. Nothing is configurable (D20), and no result of CORE is left
open, so there is no free value here. -/

namespace Sys2Proof.Config

/-- `BLOCK_BYTES` (R6). -/
def blockBytes : Nat := 64

/-- `BLOCK_BITS`, the modulus of the filler computation (R6). -/
def blockBits : Nat := 512

/-- `RESIDUE_BITS`, the residue modulo 512 that marker and filler must reach (R6). -/
def residueBits : Nat := 448

/-- `MARKER`, the first suffix byte, binary 10000000 (R6, R42). -/
def marker : Byte := 0x80#8

/-- `MARKER_BITS` (R6). -/
def markerBits : Nat := 8

/-- `FILL`, the value of every filler byte (R6). -/
def fill : Byte := 0x00#8

/-- `LENFIELD_BYTES` (R6). -/
def lengthFieldBytes : Nat := 8

/-- `LENFIELD_BITS` (R6). -/
def lengthFieldBits : Nat := 64

/-- `L_LIMIT`, the smallest input length in bytes that raises Overflow (R6, R140). -/
def lengthLimit : Nat := 2 ^ 61

/-- `MIN_PADLEN` (R6). -/
def minPadLength : Nat := 9

/-- `MAX_FBYTES` (R6). -/
def maxFillerBytes : Nat := 63

/-- `MAX_PADLEN` (R6). -/
def maxPadLength : Nat := 72

end Sys2Proof.Config
end

