-- ==== Sys2Proof/Machine/Flags.lean ====
section
/-! DEFINITION. The one flag of CORE. -/

namespace Sys2Proof.Machine

/-- `OVF` (R24, R81): set exactly when `L >= 2^61`. -/
def overflowFlag (L : Nat) : Bool :=
  decide (Config.lengthLimit ≤ L)

end Sys2Proof.Machine
end

