-- ==== Sys2Proof/Machine/Ble.lean ====
section
/-! DEFINITION. Unit BLE, the bit-length encoder (R80 to R84). -/

namespace Sys2Proof.Machine

/-- `BITLEN` (R81): `BL = L * 8` when `OVF = 0`. When `OVF = 1` there is no value, "so that no proof can
use one" (R84): never the truncated product. -/
def bitLength (L : Nat) : Option (BitVec 64) :=
  if overflowFlag L then none else some (BitVec.ofNat 64 (L * 8))

/-- `LENBYTES[k] = (BL >> (8 * (7 - k))) mod 256` (R41, R82). -/
def lengthByte (bl : BitVec 64) (k : Nat) : Byte :=
  (bl >>> (8 * (7 - k))).setWidth 8

/-- `BE64` (R82): the eight length bytes, most significant first. -/
def be64 (bl : BitVec 64) : List Byte :=
  (List.range Config.lengthFieldBytes).map (lengthByte bl)

/-- A byte sequence read as a big-endian unsigned number (R43). -/
def beValue (bytes : List Byte) : Nat :=
  bytes.foldl (fun acc b => acc * 256 + b.toNat) 0

end Sys2Proof.Machine
end

