-- ==== Sys2Proof/Machine/Mpl.lean ====
section
/-! DEFINITION. Unit MPL, the modular padding-length computer (R90 to R98). It runs only when `OVF = 0`,
on a `BL` that has a value. -/

namespace Sys2Proof.Machine

/-- `TAM` (R90): the natural-number sum, which does not wrap. -/
def totalAfterMarker (bl : BitVec 64) : Nat :=
  bl.toNat + Config.markerBits

/-- `FBITS` (R91): `(448 - (TAM mod 512)) mod 512` on integers, with the non-negative remainder of R8. -/
def fillerBits (tam : Nat) : BitVec 9 :=
  BitVec.ofNat 9
    (((Config.residueBits : Int) - ((tam % Config.blockBits : Nat) : Int)) % (Config.blockBits : Int)).toNat

/-- `FBYTES` (R93): exact division by 8 (R94). -/
def fillerBytes (fbits : BitVec 9) : BitVec 6 :=
  BitVec.ofNat 6 (fbits.toNat / 8)

/-- `PADLEN` (R97): one marker byte, the filler, the length field. -/
def padLength (fbytes : BitVec 6) : BitVec 7 :=
  BitVec.ofNat 7 (1 + fbytes.toNat + Config.lengthFieldBytes)

/-- `N` (R28, R98): the suffix length, plus the input length when the input is passed through. -/
def outputLength (passThrough : Bool) (L : Nat) (padlen : BitVec 7) : Nat :=
  if passThrough then L + padlen.toNat else padlen.toNat

/-- The filler count that a bit length leads to, through the source's steps 2 to 5 (R90, R91, R93). -/
def fillerCount (bl : BitVec 64) : BitVec 6 :=
  fillerBytes (fillerBits (totalAfterMarker bl))

end Sys2Proof.Machine
end

