-- ==== Sys2Proof/Machine/Bsf.lean ====
section
/-! DEFINITION. Unit BSF, the byte-sequence formatter, as sequences and as functions of an index (R105,
R106, R113). The order in which it produces them is in Ops.lean and Serial.lean. -/

namespace Sys2Proof.Machine

/-- `zeros(n)` (R10): `n` filler bytes. -/
def zeros (n : Nat) : List Byte :=
  List.replicate n Config.fill

/-- The suffix that goes with a bit length (R105). -/
def suffixOf (bl : BitVec 64) : List Byte :=
  [Config.marker] ++ zeros (fillerCount bl).toNat ++ be64 bl

/-- `SUFFIX(L)` (R105). It has no value when `L >= 2^61`, where `BL` has none (U8). -/
def suffix (L : Nat) : Option (List Byte) :=
  (bitLength L).map suffixOf

/-- The suffix byte at offset `j` of the suffix of a bit length (R106). -/
def suffixByteOf (bl : BitVec 64) (j : Nat) : Option Byte :=
  if j = 0 then some Config.marker
  else if j ≤ (fillerCount bl).toNat then some Config.fill
  else (be64 bl)[j - (fillerCount bl).toNat - 1]?

/-- `SUFBYTE(L, j)` (R106); no value at or above `PADLEN` (U9). -/
def suffixByte (L j : Nat) : Option Byte :=
  (bitLength L).bind (suffixByteOf · j)

/-- `PADBYTE(IN, i)` (R113); no value at or above `N` (U9). DEDUCED (log 14): for an input of `2^61` bytes
or more it has no value at any index, `i < L` included, since `N` has none there (U8) and no padded output
exists (R143). R113 itself speaks only of `0 <= i < N`. -/
def paddedByte (input : List Byte) (i : Nat) : Option Byte :=
  (bitLength input.length).bind fun bl =>
    if i < input.length then input[i]? else suffixByteOf bl (i - input.length)

end Sys2Proof.Machine
end

