-- ==== Sys2Proof/Syntax.lean ====
section
/-! DEFINITION. The instructions of CORE, the command a requester sends and the response it gets. -/

namespace Sys2Proof

/-- The two instructions, one per row of the opcode map (R70). Neither has a field: the one operand is
the byte sequence `IN`, which "accompanies the command" and is not part of the command word (R62). -/
inductive Instr where
  /-- `PAD`, the source's `compute_padding` (R120). -/
  | pad
  /-- `PADMSG`, the source's `compute_padded_message` (R121). -/
  | padmsg
deriving DecidableEq, Repr

/-- A command `CMD` (R60) as a requester offers it: `OP` and the operand `IN`.
DESIGN CHOICE (log 2): `requester` names who issued it, so that its response can be told apart (R149). -/
structure Command where
  requester : Nat
  op : OpWord
  input : List Byte
deriving DecidableEq, Repr

/-- A response, the result of one operation (R12, R63): `OK(out)` with the complete output, or Overflow
with no output and no other information (R141). -/
inductive Response where
  | ok (out : List Byte)
  | overflow
deriving DecidableEq, Repr

/-- The two parts of `RSP` as they are delivered (R63): the status bit, and `OUT` or its absence. -/
structure RawResponse where
  status : StatusBit
  out : Option (List Byte)
deriving DecidableEq, Repr

/-- A response handed to the requester of its command (R63, R149). -/
structure Delivery where
  requester : Nat
  response : Response
deriving DecidableEq, Repr

/-- The operand literals of the assembler notation (R68). -/
inductive Literal where
  /-- A hex byte list, index 0 first; `-` is the empty list. -/
  | hex (bytes : List Byte)
  /-- The source's byte-string literal, its characters in order. -/
  | str (chars : List Char)
  /-- `xx*n`: `n` copies of one byte. -/
  | copies (byte : Byte) (n : Nat)
  /-- `len=n`: any input of `n` bytes. -/
  | anyOfLength (n : Nat)
  /-- `++`: concatenation. -/
  | cat (first second : Literal)
deriving DecidableEq, Repr

/-- A command line of the assembler notation: a mnemonic and one operand (R68). -/
structure Line where
  instr : Instr
  operand : Literal
deriving DecidableEq, Repr

end Sys2Proof
end

