-- ==== Sys2Proof/Machine/State.lean ====
section
/-! DEFINITION. The state of CORE as plain data: the working values of an operation, its two sequence
spaces, and the ports to the requesters. -/

namespace Sys2Proof.Machine

/-- The machine never stops with a fault. Its one exception, Overflow, is delivered to the requester as
the response's status and CORE "is at once ready for the next command" (R143), so it is a next state;
"there is no third outcome: no hang, no stuck state, no refusal, no partial result" (R125). -/
inductive Fault : Type
deriving DecidableEq, Repr

/-- Why a step would refuse. -/
inductive Refusal : Type
  /-- Raised by `exec` alone, for an instruction without a meaning; both have one. Safe: nothing runs. -/
  | notModelled (mnemonic : String)
deriving DecidableEq, Repr

/-- The two byte-sequence spaces of an operation (R34, R40) and the index that runs over the second.
DESIGN CHOICE (log 9): they are sequences, as the spec lays them out, and not address-byte pairs. -/
structure Memory where
  /-- `IN`: addresses 0 .. L-1, read-only (R40). An address at or above `L` holds no byte (U9). -/
  inp : List Byte
  /-- `OUT`: addresses 0 .. N-1, written once each in increasing order (R40, R45). -/
  out : List Byte
  /-- `IDX`: the number of output bytes already produced (R29). -/
  idx : Nat
deriving DecidableEq, Repr

/-- The form every memory operation keeps: `OUT` holds a byte at exactly the addresses below `IDX`
(R29: `emit` writes address `IDX` and steps it by one). -/
abbrev Memory.wf (m : Memory) : Prop :=
  m.idx = m.out.length

/-- The spaces when no operation is in progress (R160, R163; DESIGN CHOICE, log 4). -/
def Memory.empty : Memory :=
  ⟨[], [], 0⟩

/-- The state of CORE and its ports. A working value is `none` while it is "without a value" (R163):
before the statement that writes it, and on the Overflow path for all but `L` and `OVF` (R142). -/
structure State where
  /-- Commands issued and not yet taken, oldest first. The model's own (log 2), not the spec's. -/
  commands : List Command
  /-- The spaces `IN` and `OUT`, and `IDX` (R29, R34, R40). -/
  mem : Memory
  /-- `L`, the input length in bytes, a natural number without bound (R22). -/
  len : Option Nat
  /-- `OVF`, the one status flag (R24). -/
  ovf : Option Bool
  /-- `BL`, the input length in bits (R23). -/
  bl : Option (BitVec 64)
  /-- `TAM`, the total after the marker (R25). -/
  tam : Option Nat
  /-- `FBITS`, the filler length in bits (R26). -/
  fbits : Option (BitVec 9)
  /-- `FBYTES`, the filler length in bytes (R27). -/
  fbytes : Option (BitVec 6)
  /-- `PADLEN`, the suffix length in bytes (R28). -/
  padlen : Option (BitVec 7)
  /-- `N`, the output length in bytes (R28). -/
  outLen : Option Nat
  /-- `RSP`, the response of the operation that has just ended (R63); it is part of a result and is not
  kept after the response is taken (R32). -/
  rsp : Option Response
  /-- Responses handed to requesters, oldest first. The model's own (log 2), not the spec's. -/
  delivered : List Delivery
deriving DecidableEq, Repr

/-- CORE right after reset: idle, no operation in progress, no command offered (R36, R160). The spec
leaves the working values unspecified; DESIGN CHOICE (log 4): none has a value, and `IDX` is 0. -/
def State.reset : State where
  commands := []
  mem := Memory.empty
  len := none
  ovf := none
  bl := none
  tam := none
  fbits := none
  fbytes := none
  padlen := none
  outLen := none
  rsp := none
  delivered := []

end Sys2Proof.Machine
end

