-- ==== Sys2Proof/Machine/Operands.lean ====
section
/-! DEFINITION. The one operand form: the input byte sequence `IN` (R62). -/

namespace Sys2Proof.Machine

/-- `LEN` (R80): the length of the operation's input, the count of bytes delivered (R62). -/
def inputLength (s : State) : Nat :=
  s.mem.inp.length

/-- `IN[i]` (R11, R45): the byte at index `i`; it has no side effect. There is no value at or above the
length (U9). -/
def inputByte (s : State) (i : Nat) : Option Byte :=
  s.mem.inp[i]?

/-- The bytes that phase MSG passes through: `IN[0]` to `IN[L-1]`, in order (R107, R108). -/
def inputBytes (s : State) : List Byte :=
  s.mem.inp

end Sys2Proof.Machine
end

