-- ==== Sys2Proof/Machine/Ops.lean ====
section
/-! DEFINITION. The named operations over registers and memory, taking the exception Overflow, and the
two ends of an operation. -/

namespace Sys2Proof.Machine

/-- Start of an operation (R163): `IDX = 0`, `OUT` empty, every other working value without a value,
whatever ran before. The input is not touched. -/
def State.startOperation (s : State) : State :=
  { s with
    mem := { s.mem with out := [], idx := 0 }
    len := none, ovf := none, bl := none, tam := none, fbits := none, fbytes := none
    padlen := none, outLen := none, rsp := none }

/-- `L <- v` (R22). -/
def State.setLen (s : State) (v : Nat) : State := { s with len := some v }

/-- `OVF <- v` (R24). -/
def State.setOvf (s : State) (v : Bool) : State := { s with ovf := some v }

/-- `BL <- v` (R23). -/
def State.setBl (s : State) (v : BitVec 64) : State := { s with bl := some v }

/-- `TAM <- v` (R25). -/
def State.setTam (s : State) (v : Nat) : State := { s with tam := some v }

/-- `FBITS <- v` (R26). -/
def State.setFbits (s : State) (v : BitVec 9) : State := { s with fbits := some v }

/-- `FBYTES <- v` (R27). -/
def State.setFbytes (s : State) (v : BitVec 6) : State := { s with fbytes := some v }

/-- `PADLEN <- v` (R28). -/
def State.setPadlen (s : State) (v : BitVec 7) : State := { s with padlen := some v }

/-- `N <- v` (R28). -/
def State.setOutLen (s : State) (v : Nat) : State := { s with outLen := some v }

/-- `emit(v)`: `OUT[IDX] <- v; IDX <- IDX + 1` (R11, R29, R130). -/
def State.emit (s : State) (v : Byte) : State :=
  { s with mem := { s.mem with out := s.mem.out ++ [v], idx := s.mem.idx + 1 } }

/-- `for v in bytes: emit(v)` (R107), the bytes of one phase. -/
def State.emitAll (s : State) (bytes : List Byte) : State :=
  { s with mem := { s.mem with out := s.mem.out ++ bytes, idx := s.mem.idx + bytes.length } }

/-- Taking the exception Overflow (R11 `raise Overflow()`, R141, R143): the operation ends, every `OUT`
write of it is void, the response is `STATUS = OVERFLOW` without `OUT`, and nothing else is recorded. No
handler, vector, saved register or mode exists (R143, R148, R150). `IDX` is back at 0 (DEDUCED, log 6). -/
def State.takeOverflow (s : State) : State :=
  { s with mem := { s.mem with out := [], idx := 0 }, rsp := some .overflow }

/-- `return OK(OUT)` (R11, R166 normal end). -/
def State.returnOk (s : State) : State :=
  { s with rsp := some (.ok s.mem.out) }

/-- BLE and MPL on the path without Overflow, in statement order (R163): `BL`, `TAM`, `FBITS`,
`FBYTES`, `PADLEN`, `N`. -/
def State.computeLengths (s : State) (passThrough : Bool) (L : Nat) (bl : BitVec 64) : State :=
  let tam := totalAfterMarker bl
  let fbits := fillerBits tam
  let fbytes := fillerBytes fbits
  let padlen := padLength fbytes
  (((((s.setBl bl).setTam tam).setFbits fbits).setFbytes fbytes).setPadlen padlen).setOutLen
    (outputLength passThrough L padlen)

/-- The formatter (R107): phase MSG if the input is passed through, then MARKER, FILL and LEN. -/
def State.format (s : State) (passThrough : Bool) (bl : BitVec 64) (fbytes : BitVec 6) : State :=
  let s := if passThrough then s.emitAll (inputBytes s) else s
  ((s.emit Config.marker).emitAll (zeros fbytes.toNat)).emitAll (be64 bl)

/-- The pseudocode that PAD and PADMSG share (R120, R121), `passThrough` being `OP` read as a
pass-through enable (R61). -/
def State.runOperation (s : State) (passThrough : Bool) : State :=
  let L := inputLength s
  let s := (s.startOperation.setLen L).setOvf (overflowFlag L)
  match bitLength L with
  | none => s.takeOverflow
  | some bl => ((s.computeLengths passThrough L bl).format passThrough bl (fillerCount bl)).returnOk

/-- Taking a command (R60, R62): it leaves the pending list and its operand becomes `IN`. -/
def State.accept (s : State) (c : Command) (rest : List Command) : State :=
  { s with commands := rest, mem := { s.mem with inp := c.input } }

/-- After the end of an operation, and after Overflow alike (there is no return instruction, R148): the
response goes to the requester of the command (R149), every working value is dead, CORE keeps no copy of
`IN` or `OUT` and is idle (R20, R54, R166). -/
def State.retire (s : State) (requester : Nat) : State :=
  { s with
    mem := Memory.empty
    len := none, ovf := none, bl := none, tam := none, fbits := none, fbytes := none
    padlen := none, outLen := none, rsp := none
    delivered := match s.rsp with
      | some r => s.delivered ++ [⟨requester, r⟩]
      | none => s.delivered }

end Sys2Proof.Machine
end

