-- ==== Sys2Proof/Machine/Padding.lean ====
section
/-! DEFINITION. The meanings of the two instructions. A meaning answers the state at the moment the
operation ends (R166): the working values it wrote, `OUT` complete and the response in `RSP`. -/

namespace Sys2Proof.Machine

/-- `PAD` (R120): only the suffix. -/
def execPad (s : State) : Host.Outcome State Fault Refusal :=
  .next (s.runOperation false)

/-- `PADMSG` (R121): the input, then the suffix. -/
def execPadmsg (s : State) : Host.Outcome State Fault Refusal :=
  .next (s.runOperation true)

/-- The result of an operation as a function of `OP` and `IN` alone (R12, R20, R124): what the step must
deliver. The machine does not use it; claims do. -/
def answer (i : Instr) (input : List Byte) : Response :=
  match suffix input.length with
  | none => .overflow
  | some sfx =>
    match i with
    | .pad => .ok sfx
    | .padmsg => .ok (input ++ sfx)

end Sys2Proof.Machine
end

