-- ==== Sys2Proof/WellFormed.lean ====
section
/-! DEFINITION. The checks on terms that come from outside: command words, responses and operand
literals. An instruction has no field that could be ill-formed. -/

namespace Sys2Proof

/-- Every instruction is well-formed: it has no operand field (R62, R66). -/
def Instr.wf : Instr → Bool
  | .pad => true
  | .padmsg => true

/-- A command word read as a number is one of the two values of the 1-bit `OP` (R61, R66); a wider one
is outside the spec (U10). -/
def commandWordWf (w : Nat) : Bool :=
  decide (w < 2)

/-- A response has `OUT` exactly when its status is `OK` (R63, R64). -/
def RawResponse.wf (r : RawResponse) : Bool :=
  if r.status = 0#1 then r.out.isSome else r.out.isNone

/-- A character literal stands for one byte only if it is one of the 128 ASCII characters
(PRESUMED, log 13: which byte a character is, is outside the source, K2). -/
def Literal.wf : Literal → Bool
  | .hex _ => true
  | .str chars => chars.all fun c => decide (c.toNat < 128)
  | .copies _ _ => true
  | .anyOfLength _ => true
  | .cat first second => first.wf && second.wf

/-- A command line is well-formed when its operand is. -/
def Line.wf (l : Line) : Bool :=
  l.instr.wf && l.operand.wf

end Sys2Proof
end

