-- ==== Sys2Proof/Decode.lean ====
section
/-! DEFINITION. Decoding of command words and responses, total and rejecting by name, and the encoders
written from the same tables (R61, R64, R70). -/

namespace Sys2Proof

/-- One row of the opcode map (R70): a command word `w` is this row's when `w &&& mask = pattern`. -/
structure OpcodeRow where
  instr : Instr
  pattern : OpWord
  mask : OpWord
deriving DecidableEq, Repr

/-- The complete opcode map (R70). -/
def opcodeMap : List OpcodeRow :=
  [⟨.pad, 0x0#1, 0x1#1⟩, ⟨.padmsg, 0x1#1, 0x1#1⟩]

/-- The row claims the word (R61: "match and mask over the 1-bit command word"). -/
def OpcodeRow.claims (r : OpcodeRow) (w : OpWord) : Bool :=
  (w &&& r.mask) == r.pattern

/-- The decoder on the 1-bit command word. It is total: "every command word decodes to PAD or to
PADMSG" (R66). -/
def decodeOp (w : OpWord) : Instr :=
  if w &&& 0x1#1 = 0x0#1 then .pad else .padmsg

/-- The command word of an instruction (R61). -/
def encodeOp : Instr → OpWord
  | .pad => 0x0#1
  | .padmsg => 0x1#1

/-- Why bytes that should carry a command word are rejected. -/
inductive DecodeError where
  /-- There is no byte that could hold a command word. Safe: nothing runs. -/
  | noCommandWord
  /-- A bit above `OP` is set: "the added values would be outside this spec and a model refuses them"
  (R66, U10). Safe: nothing runs. -/
  | bitsBeyondOp
deriving DecidableEq, Repr

/-- The decoder on stored bytes: a command word takes one byte, `OP` in bit 0, and what follows it is
left over. DESIGN CHOICE (log 7): the spec gives the 1-bit word no carrier. -/
def decode : List Byte → Except DecodeError (Instr × List Byte)
  | [] => .error .noCommandWord
  | b :: rest =>
    if b.extractLsb' 1 7 = 0#7 then .ok (decodeOp (b.extractLsb' 0 1), rest)
    else .error .bitsBeyondOp

/-- The bytes of an instruction's command word, in the same carrier. -/
def encode (i : Instr) : List Byte :=
  [(encodeOp i).setWidth 8]

/-- The bytes that hold the `nbits` low bits of `w`, bits 7..0 first. -/
def wordBytes (nbits w : Nat) : List Byte :=
  (List.range ((nbits + 7) / 8)).map fun k => BitVec.ofNat 8 (w >>> (8 * k))

/-- The instruction the decoder reads from an opcode-table row's word; what stands above the command
word's byte must be zero. -/
def decodeTableWord (nbits w : Nat) : Option Instr :=
  match decode (wordBytes nbits w) with
  | .ok (i, rest) => if rest.all (· == 0#8) then some i else none
  | .error _ => none

/-- The `STATUS` bit of a response (R64). -/
def Response.status : Response → StatusBit
  | .ok _ => 0#1
  | .overflow => 1#1

/-- The `OUT` part of a response: absent when the status is `OVERFLOW` (R63). -/
def Response.out : Response → Option (List Byte)
  | .ok out => some out
  | .overflow => none

/-- A response as its two parts (R63). -/
def encodeResponse (r : Response) : RawResponse :=
  ⟨r.status, r.out⟩

/-- The response that two parts stand for; `none` where `OUT` does not fit the status (R63). -/
def decodeResponse (r : RawResponse) : Option Response :=
  if r.status = 0#1 then r.out.map .ok
  else match r.out with
    | none => some .overflow
    | some _ => none

end Sys2Proof
end

