-- ==== Sys2Proof/Machine/Fetch.lean ====
section
/-! DEFINITION. Where a step finds its next instruction: the oldest pending command. -/

namespace Sys2Proof.Machine

/-- The next command, its instruction, and the state in which that instruction runs: the command taken
and its operand in `IN` (R60, R62). `none` when no command is pending. -/
def fetch (s : State) : Option (Command × Instr × State) :=
  match s.commands with
  | [] => none
  | c :: rest => some (c, decodeOp c.op, s.accept c rest)

/-- The 1-bit command word that a stored word carries; `none` for a word with a bit beyond `OP`, which
does not fit the field (R66, U10). -/
def opOfWord (nbits w : Nat) : Option OpWord :=
  (decodeTableWord nbits w).map encodeOp

/-- The command whose word is replaced: the one that the next step takes, or, when none is pending, one
with the empty operand from requester 0 (log 8). -/
def commandAtFetch (s : State) : Command :=
  s.commands.headD ⟨0, 0#1, []⟩

/-- The command word stored where the next step takes its instruction; the operand and everything else
stay. A word that does not fit `OP` is not stored. -/
def storeCommandWord (s : State) (nbits w : Nat) : State :=
  match opOfWord nbits w with
  | some op => { s with commands := { commandAtFetch s with op := op } :: s.commands.tail }
  | none => s

end Sys2Proof.Machine
end

