-- ==== Sys2Proof/Machine/Step.lean ====
section
/-! DEFINITION. One step: the oldest pending command, run to its end and answered (R45, R166, D1). -/

namespace Sys2Proof.Machine

/-- One step is one whole operation (D1, log 1): take the oldest command, run its instruction, hand the
response to its requester. With no command pending CORE is idle and nothing changes (R151; DESIGN
CHOICE, log 3). -/
def step (s : State) : Host.Outcome State Fault Refusal :=
  match fetch s with
  | none => .next s
  | some (c, i, s') =>
    match exec i s' with
    | .next t => .next (t.retire c.requester)
    | .fault f => .fault f
    | .refused r => .refused r

/-- The state whose next step runs the instruction of the given word (log 8). -/
def State.withFetchWord (s : State) (nbits w : Nat) : State :=
  storeCommandWord s nbits w

end Sys2Proof.Machine
end

