-- ==== Sys2Proof/Machine/Assembly.lean ====
section
/-! DEFINITION. The assembler notation of commands and responses (R68, R69). -/

namespace Sys2Proof.Machine

/-- The mnemonic of an instruction (R68, R70). -/
def mnemonic : Instr → String
  | .pad => "PAD"
  | .padmsg => "PADMSG"

/-- The instruction a name stands for: a mnemonic, or the source's function name as its alias. Any other
name, the source's `hash_bytes` among them, has none (R69). -/
def instrOfName (name : String) : Option Instr :=
  if name = "PAD" ∨ name = "compute_padding" then some .pad
  else if name = "PADMSG" ∨ name = "compute_padded_message" then some .padmsg
  else none

/-- The byte of a character of a byte-string literal, for the ASCII characters (PRESUMED, log 13). -/
def charByte (c : Char) : Option Byte :=
  if c.toNat < 128 then some (BitVec.ofNat 8 c.toNat) else none

/-- The input is one that the operand literal stands for (R68). Every literal but `len=n` stands for one
input. -/
def denotes : Literal → List Byte → Bool
  | .hex bytes, x => x == bytes
  | .str chars, x => chars.map charByte == x.map some
  | .copies b n, x => x == List.replicate n b
  | .anyOfLength n, x => x.length == n
  | .cat first second, x =>
    (List.range (x.length + 1)).any fun k => denotes first (x.take k) && denotes second (x.drop k)

/-- The command is one that the line stands for (R68). -/
def lineDenotes (l : Line) (c : Command) : Bool :=
  decide (decodeOp c.op = l.instr) && denotes l.operand c.input

/-- A hexadecimal digit, capitals as in the spec's dumps. -/
def hexDigit (n : Nat) : Char :=
  if n < 10 then Char.ofNat (48 + n) else Char.ofNat (55 + n)

/-- A byte as two hex digits (R68). -/
def hexByte (b : Byte) : List Char :=
  [hexDigit (b.toNat / 16), hexDigit (b.toNat % 16)]

/-- A hex byte list: each item two hex digits, index 0 first, the empty list written `-` (R68). -/
def hexText : List Byte → List Char
  | [] => ['-']
  | [b] => hexByte b
  | b :: rest => hexByte b ++ ' ' :: hexText rest

/-- A response is written `OK <bytes>` or `OVERFLOW` (R68). -/
def responseText : Response → List Char
  | .ok out => ['O', 'K', ' '] ++ hexText out
  | .overflow => ['O', 'V', 'E', 'R', 'F', 'L', 'O', 'W']

end Sys2Proof.Machine
end

