-- ==== Sys2Proof/Machine/Serial.lean ====
section
/-! DEFINITION. The formatter read byte by byte (R29, R30, R107): the phase as a function of `IDX`, and
one `emit` per step. The operations of Padding.lean produce whole phases at once, which R107 allows; that
both give the same `OUT` is a claim. -/

namespace Sys2Proof.Machine

/-- The phases of the formatter (R30, R107). -/
inductive Phase : Type
  | msg
  | marker
  | fill
  | len
  | done
deriving DecidableEq, Repr

/-- `base`: where the suffix starts in `OUT` (R30, R107). -/
def suffixBase (passThrough : Bool) (L : Nat) : Nat :=
  if passThrough then L else 0

/-- The phase at output index `idx` (R30): a function of `IDX`, not stored. There is none beyond
`PADLEN`, a value `IDX` never takes (R29). -/
def phase (passThrough : Bool) (L : Nat) (bl : BitVec 64) (idx : Nat) : Option Phase :=
  let base := suffixBase passThrough L
  let F := (fillerCount bl).toNat
  if idx < base then some .msg
  else if idx = base then some .marker
  else if idx - base ≤ F then some .fill
  else if idx - base ≤ F + 8 then some .len
  else if idx - base = F + 9 then some .done
  else none

/-- One step of the byte-serial formatter: `emit` the byte that the phase puts at `IDX` (R107). -/
def serialStep (passThrough : Bool) (bl : BitVec 64) (s : State) : State :=
  let L := inputLength s
  match phase passThrough L bl s.mem.idx with
  | some .msg =>
    match inputByte s s.mem.idx with
    | some b => s.emit b
    | none => s
  | some .marker => s.emit Config.marker
  | some .fill => s.emit Config.fill
  | some .len =>
    s.emit (lengthByte bl (s.mem.idx - suffixBase passThrough L - (fillerCount bl).toNat - 1))
  | some .done => s
  | none => s

/-- `k` steps of the byte-serial formatter. -/
def serialRun (passThrough : Bool) (bl : BitVec 64) : Nat → State → State
  | 0, s => s
  | k + 1, s => serialRun passThrough bl k (serialStep passThrough bl s)

end Sys2Proof.Machine
end

