-- ==== Sys2Proof/Safety.lean ====
section
/-! DEFINITION. What a safe run of CORE is: it is idle between operations, and every response it has
handed out is whole. -/

namespace Sys2Proof.Machine

/-- CORE is idle: no operation in progress, no working value, no response held (R20, R160, R166). -/
abbrev State.Idle (s : State) : Prop :=
  s.mem = Memory.empty ∧ s.len = none ∧ s.ovf = none ∧ s.bl = none ∧ s.tam = none ∧
    s.fbits = none ∧ s.fbytes = none ∧ s.padlen = none ∧ s.outLen = none ∧ s.rsp = none

/-- A whole response (R109, R110): Overflow without bytes, or an output that ends in the whole suffix of
the length of the input it answers, standing alone (PAD) or behind an input of that length (PADMSG). -/
def ResponseWhole : Response → Prop
  | .ok out => ∃ (input sfx : List Byte),
      suffix input.length = some sfx ∧ (out = sfx ∨ out = input ++ sfx)
  | .overflow => True

/-- The safe states: idle between operations, and only whole responses handed out. -/
def State.Safe (s : State) : Prop :=
  s.Idle ∧ ∀ d ∈ s.delivered, ResponseWhole d.response

/-- What a consumer does to get the input back from a padded output (R112): read `BL` from the last 8
bytes, take the first `BL / 8` bytes. -/
def recoverInput (m : List Byte) : List Byte :=
  m.take (beValue (m.drop (m.length - 8)) / 8)

/-- The responses handed to one requester, oldest first. -/
def State.deliveredTo (s : State) (requester : Nat) : List Response :=
  (s.delivered.filter fun d => d.requester = requester).map (·.response)

/-- The commands of one requester that are pending, as (OP, IN), oldest first. -/
def State.pendingOf (s : State) (requester : Nat) : List (OpWord × List Byte) :=
  (s.commands.filter fun c => c.requester = requester).map fun c => (c.op, c.input)

end Sys2Proof.Machine
end

