-- ==== Sys2Proof/Certificates/Slice0/Obligations.lean ====
section
/-! DEFINITION. The statements for the provers. Each docstring names what of the spec it formalises, and
says so where a clause is the spec's own inference or decision, or the model's choice (a log entry). -/

open Sys2Proof Sys2Proof.Machine

/-! ## Encoding -/

/-- The command words written out from the opcode map decode to PAD and PADMSG (30_encoding.md section 1;
the bit values are the spec's decision D3, the byte that carries the word is the model's, log 7). -/
def Obligations.CommandWordsDecodeAsWritten : Prop :=
  decodeOp 0#1 = .pad ∧ decodeOp 1#1 = .padmsg ∧
  (∀ rest, decode (0x00#8 :: rest) = .ok (.pad, rest)) ∧
  (∀ rest, decode (0x01#8 :: rest) = .ok (.padmsg, rest)) ∧
  decodeTableWord 8 0 = some .pad ∧ decodeTableWord 8 1 = some .padmsg

/-- Every 1-bit command word is claimed by exactly one row of the opcode map, and the decoder gives that
row's instruction; a stored word with a bit beyond `OP` is rejected by name (30_encoding.md section 4,
the spec's inference from the encoding; the carrier byte is the model's, log 7). -/
def Obligations.EveryCommandWordIsExactlyOneOperation : Prop :=
  (∀ w : OpWord, (opcodeMap.filter (·.claims w)).map (·.instr) = [decodeOp w]) ∧
  (∀ (b : Byte) (rest : List Byte), b.toNat < 2 →
    decode (b :: rest) = .ok (decodeOp (b.setWidth 1), rest)) ∧
  (∀ (b : Byte) (rest : List Byte), 2 ≤ b.toNat → decode (b :: rest) = .error .bitsBeyondOp) ∧
  decode [] = .error .noCommandWord

/-- Decoding and encoding are inverse in both directions, with anything after the command word
(30_encoding.md sections 1 and 6; carrier byte: log 7). -/
def Obligations.DecodeAndEncodeAgree : Prop :=
  (∀ i : Instr, i.wf = true → decodeOp (encodeOp i) = i) ∧
  (∀ w : OpWord, encodeOp (decodeOp w) = w) ∧
  (∀ (i : Instr) (rest : List Byte), i.wf = true → decode (encode i ++ rest) = .ok (i, rest)) ∧
  (∀ (bytes : List Byte) (i : Instr) (rest : List Byte),
    decode bytes = .ok (i, rest) → bytes = encode i ++ rest)

/-- The two parts of a response are well-formed exactly when they encode a response, and decode back to
it; OK is status 0 with `OUT`, OVERFLOW is status 1 without (30_encoding.md section 3, decision D4). -/
def Obligations.ResponsePartsRoundTrip : Prop :=
  (∀ r : Response, decodeResponse (encodeResponse r) = some r) ∧
  (∀ raw : RawResponse, raw.wf = true ↔ ∃ r, encodeResponse r = raw) ∧
  (∀ (raw : RawResponse) (r : Response), decodeResponse raw = some r → encodeResponse r = raw) ∧
  (∀ out, encodeResponse (.ok out) = ⟨0#1, some out⟩) ∧ encodeResponse .overflow = ⟨1#1, none⟩

/-- The names of the assembler notation: the two mnemonics, the two source names as aliases, and
`hash_bytes` none of them (30_encoding.md section 5; the notation is decision D16). -/
def Obligations.NamesOfTheNotation : Prop :=
  (∀ i : Instr, instrOfName (mnemonic i) = some i) ∧
  instrOfName "compute_padding" = some .pad ∧
  instrOfName "compute_padded_message" = some .padmsg ∧
  instrOfName "hash_bytes" = none

/-- What the five operand literals stand for: a hex list, a byte-string literal and `xx*n` one input each,
`len=n` every input of `n` bytes, `++` every concatenation (30_encoding.md section 5; the notation is
decision D16). That a character of a byte-string literal is the byte of its ASCII code, and that a literal
with any other character stands for no input, is PRESUMED (log 13; K2 gives `b"abc"` as `61 62 63`). -/
def Obligations.OperandLiteralsDenote : Prop :=
  (∀ bytes x, denotes (.hex bytes) x = true ↔ x = bytes) ∧
  (∀ chars x, denotes (.str chars) x = true ↔
    (∀ c ∈ chars, c.toNat < 128) ∧ x = chars.map fun c => BitVec.ofNat 8 c.toNat) ∧
  denotes (.str ['a', 'b', 'c']) [0x61#8, 0x62#8, 0x63#8] = true ∧
  (∀ b n x, denotes (.copies b n) x = true ↔ x.length = n ∧ ∀ y ∈ x, y = b) ∧
  (∀ n x, denotes (.anyOfLength n) x = true ↔ x.length = n) ∧
  (∀ l m x, denotes (.cat l m) x = true ↔
    ∃ y z, x = y ++ z ∧ denotes l y = true ∧ denotes m z = true)

/-! ## The step and runs -/

/-- A step takes the oldest pending command, puts its operand into `IN`, runs `exec` of the instruction
that its command word decodes to, hands the response to the command's requester and leaves CORE idle (20_memory.md section 4, decision D1; idleness:
10_state.md section 1, 70_reset_and_hazards.md section 4). The model's choices here: the split of a step
into taking, `exec` and retiring (log 1), the pending list and the requester tag (log 2), and that idle
means no working value, `IDX` 0 and empty `IN` and `OUT`, from any state (log 4). -/
def Obligations.StepRunsTheDecodedCommand : Prop :=
  ∀ (s : State) (c : Command) (cs : List Command), s.commands = c :: cs →
    ∃ t, exec (decodeOp c.op) { s with commands := cs, mem := { s.mem with inp := c.input } } = .next t ∧
      ∃ u, step s = .next u ∧ u.Idle ∧ u.commands = t.commands ∧
        ∀ r, t.rsp = some r → u.delivered = t.delivered ++ [⟨c.requester, r⟩]

/-- With no command pending a step changes nothing. The model's choice (log 3): the spec says only that
CORE is idle between operations (60_exceptions.md section 5). -/
def Obligations.StepWithoutCommandChangesNothing : Prop :=
  ∀ s : State, s.commands = [] → step s = .next s

/-- One step answers the oldest command with the result that is a function of its `OP` and `IN` alone,
and leaves the empty state behind: from an idle CORE nothing else changes (10_state.md section 1 with
43_operations.md section 2; 70_reset_and_hazards.md section 4, decision D23). The model's choices here:
that the oldest pending command is the one answered and that its response is added last with its
requester's number (log 2), and that idle means no working value, `IDX` 0 and empty `IN` and `OUT`, from any
state (log 4). -/
def Obligations.StepAnswersTheOldestCommandAndNothingElse : Prop :=
  (∀ (s : State) (c : Command) (cs : List Command), s.commands = c :: cs →
    ∃ t, step s = .next t ∧ t.Idle ∧ t.commands = cs ∧
      t.delivered = s.delivered ++ [⟨c.requester, answer (decodeOp c.op) c.input⟩]) ∧
  (∀ (s : State) (c : Command) (cs : List Command), s.Idle → s.commands = c :: cs →
    step s = .next { s with
      commands := cs
      delivered := s.delivered ++ [⟨c.requester, answer (decodeOp c.op) c.input⟩] })

/-- From every state, as many steps as there are pending commands answer each of them, in order, with the
result of its own `OP` and `IN`, and leave CORE idle: the machine refines the pure function
(20_memory.md section 6; 43_operations.md section 2; the spec's inference from statelessness). The model's
choices here: the order of the pending list and the requester tag (log 2), and that idle means no working
value, `IDX` 0 and empty `IN` and `OUT`, from any state (log 4). -/
def Obligations.RunAnswersEveryPendingCommand : Prop :=
  ∀ s : State, ∃ t : State, Host.Core.run core s.commands.length s = .next t ∧
    t.commands = [] ∧
    t.delivered = s.delivered ++
      s.commands.map (fun c => (⟨c.requester, answer (decodeOp c.op) c.input⟩ : Delivery)) ∧
    (s.commands ≠ [] → t.Idle)

/-- What a requester gets does not depend on the others: two states in which a requester has the same
pending commands and has been given the same responses, whatever the other requesters issued and however
the commands interleave, give it the same responses (20_memory.md section 6; 60_exceptions.md section 5,
decision D15; the requester tag is the model's, log 2). -/
def Obligations.OtherRequestersAreInvisible : Prop :=
  ∀ (r : Nat) (s s' t t' : State), s.pendingOf r = s'.pendingOf r →
    s.deliveredTo r = s'.deliveredTo r →
    Host.Core.run core s.commands.length s = .next t →
    Host.Core.run core s'.commands.length s' = .next t' →
    t.deliveredTo r = t'.deliveredTo r

/-- The machine never stops: no fault, no refusal (43_operations.md section 2 and 60_exceptions.md
section 1, the spec's inference that there is no third outcome). That Overflow is a next state and not a
stop is the model's inference (log 5, DEDUCED), and that a step with no command pending answers a next state
is its choice (log 3). -/
def Obligations.EveryStepAnswersANextState : Prop :=
  ∀ s : State, ∃ t, step s = .next t

/-- Every step keeps the machine safe: idle between operations, and every response handed out whole
(10_state.md section 1; 42_byte_sequence_formatter.md, "never partially"; 70_reset_and_hazards.md
section 4). That idle means no working value, `IDX` 0 and empty `IN` and `OUT` is the model's choice
(log 4). -/
def Obligations.StepsKeepTheMachineSafe : Prop :=
  ∀ s t : State, s.Safe → step s = .next t → t.Safe

/-- The state after reset is safe: CORE is idle and has handed out nothing (70_reset_and_hazards.md
section 1, decision D10). That no working value has a value there, and that `IDX` is 0, is the model's
choice (log 4). -/
def Obligations.ResetIsSafeAndIdle : Prop :=
  State.reset.Safe ∧ State.reset.commands = [] ∧ State.reset.delivered = []

/-- The form of memory (`IDX` is the number of bytes in `OUT`) holds after every instruction, from any
state at all, and every step keeps it (10_state.md section 3, decision D9). The form itself is the model's
choice (log 9); that it holds after Overflow, with `IDX` 0 and `OUT` empty, is its reading (log 6, DEDUCED),
and after a step, with the same values, its choice (log 4). -/
def Obligations.MemoryFormHoldsAfterEveryOperation : Prop :=
  (∀ (i : Instr) (s : State), ∃ t, exec i s = .next t ∧ t.mem.wf) ∧
  (∀ s t : State, s.mem.wf → step s = .next t → t.mem.wf)

/-- The first operation after reset gives the same response as the same command at any later time, from
any state (70_reset_and_hazards.md section 2, decision D22). -/
def Obligations.FirstOperationNeedsNoWarmUp : Prop :=
  ∀ (s : State) (c : Command) (cs : List Command), s.commands = c :: cs →
    ∃ t u, step { State.reset with commands := [c] } = .next t ∧ step s = .next u ∧
      t.delivered.getLast? = u.delivered.getLast? ∧ t.delivered.length = 1

/-! ## The two instructions -/

/-- R120, whole. PAD completes on every input; below `2^61` bytes with every working value the pseudocode
writes and the suffix as response, at or above with Overflow and no byte; corner cases: 64 bytes for the
empty input, 9 for `L mod 64 = 55`, 72 for `L mod 64 = 56`, and for `L = 2^61 - 1` 65 bytes ending
`FF FF FF FF FF FF FF F8`. The response depends on `L` alone. -/
def Obligations.PadGivesTheSuffixOrOverflow : Prop :=
  ∀ (s : State) (L F : Nat) (sfx : List Byte), s.mem.inp.length = L →
    F = ((448 - (((L * 8 + 8) % 512 : Nat) : Int)) % 512).toNat →
    sfx = [0x80#8] ++ List.replicate (F / 8) 0x00#8 ++ be64 (BitVec.ofNat 64 (L * 8)) →
    (L < 2 ^ 61 →
      (exec .pad s = .next { s with
        mem := { inp := s.mem.inp, out := sfx, idx := sfx.length }
        len := some L, ovf := some false, bl := some (BitVec.ofNat 64 (L * 8))
        tam := some (L * 8 + 8), fbits := some (BitVec.ofNat 9 F), fbytes := some (BitVec.ofNat 6 (F / 8))
        padlen := some (BitVec.ofNat 7 (F / 8 + 9)), outLen := some (F / 8 + 9)
        rsp := some (.ok sfx) }) ∧
      sfx.length = F / 8 + 9 ∧
      (L = 0 → sfx.length = 64) ∧ (L % 64 = 55 → sfx.length = 9) ∧ (L % 64 = 56 → sfx.length = 72) ∧
      9 ≤ sfx.length ∧ sfx.length ≤ 72 ∧
      (L = 2 ^ 61 - 1 → sfx.length = 65 ∧
        sfx.drop 57 = [0xFF#8, 0xFF#8, 0xFF#8, 0xFF#8, 0xFF#8, 0xFF#8, 0xFF#8, 0xF8#8])) ∧
    (2 ^ 61 ≤ L →
      ∃ t, exec .pad s = .next t ∧ t.ovf = some true ∧ t.rsp = some .overflow ∧ t.mem.out = [])

/-- PADMSG completes on every input: below `2^61` bytes with every working value its pseudocode writes
and the input followed by the suffix as response, at or above with Overflow and no byte, not even of the
input (43_operations.md section 1, the pseudocode and corner cases of `PADMSG`). -/
def Obligations.PadmsgGivesTheInputAndTheSuffixOrOverflow : Prop :=
  ∀ (s : State) (L F : Nat) (m : List Byte), s.mem.inp.length = L →
    F = ((448 - (((L * 8 + 8) % 512 : Nat) : Int)) % 512).toNat →
    m = s.mem.inp ++ [0x80#8] ++ List.replicate (F / 8) 0x00#8 ++ be64 (BitVec.ofNat 64 (L * 8)) →
    (L < 2 ^ 61 →
      (exec .padmsg s = .next { s with
        mem := { inp := s.mem.inp, out := m, idx := m.length }
        len := some L, ovf := some false, bl := some (BitVec.ofNat 64 (L * 8))
        tam := some (L * 8 + 8), fbits := some (BitVec.ofNat 9 F), fbytes := some (BitVec.ofNat 6 (F / 8))
        padlen := some (BitVec.ofNat 7 (F / 8 + 9)), outLen := some (L + (F / 8 + 9))
        rsp := some (.ok m) }) ∧
      m.length = L + F / 8 + 9 ∧ m.length % 64 = 0 ∧
      (L = 0 → m.length = 64 ∧ ∃ p, exec .pad s = .next p ∧ p.rsp = some (.ok m)) ∧
      (L = 55 → m.length = 64) ∧ (L = 56 → m.length = 128)) ∧
    (2 ^ 61 ≤ L →
      ∃ t, exec .padmsg s = .next t ∧ t.ovf = some true ∧ t.rsp = some .overflow ∧ t.mem.out = [])

/-- Taking Overflow, both instructions: `L` and `OVF` are written, no other working value has a value,
`OUT` has no byte, the response is OVERFLOW, and nothing else of the state changes (60_exceptions.md
section 1, decisions D4, D5, D6). That `IDX` is 0 then is the model's reading (log 6). -/
def Obligations.OverflowIsTakenAsTheSpecSays : Prop :=
  ∀ (i : Instr) (s : State), 2 ^ 61 ≤ s.mem.inp.length →
    exec i s = .next { s with
      mem := { inp := s.mem.inp, out := [], idx := 0 }
      len := some s.mem.inp.length, ovf := some true
      bl := none, tam := none, fbits := none, fbytes := none, padlen := none, outLen := none
      rsp := some .overflow }

/-- R140: Overflow is the only exception, and its condition is exactly `L >= 2^61`, equivalently
`L * 8 >= 2^64`, equivalently `OVF = 1`; `2^61 - 1` does not raise it and `2^61` does. -/
def Obligations.OverflowExactlyFromTwoToTheSixtyOne : Prop :=
  ∀ (i : Instr) (s : State), ∃ t r, exec i s = .next t ∧ t.rsp = some r ∧
    (r = .overflow ↔ 2 ^ 61 ≤ s.mem.inp.length) ∧
    (r = .overflow ↔ 2 ^ 64 ≤ s.mem.inp.length * 8) ∧
    (r = .overflow ↔ t.ovf = some true) ∧
    (r ≠ .overflow → ∃ out, r = .ok out) ∧
    (s.mem.inp.length = 2305843009213693951 → r ≠ .overflow) ∧
    (s.mem.inp.length = 2305843009213693952 → r = .overflow)

/-- The status bit that the requester sees: 0 with the whole output, 1 without any (30_encoding.md
section 3 and 60_exceptions.md section 1, decision D4). -/
def Obligations.StatusBitTellsTheOutcome : Prop :=
  ∀ (i : Instr) (s : State), ∃ t r, exec i s = .next t ∧ t.rsp = some r ∧
    (s.mem.inp.length < 2 ^ 61 → encodeResponse r = ⟨0#1, some t.mem.out⟩ ∧ t.outLen = some t.mem.out.length) ∧
    (2 ^ 61 ≤ s.mem.inp.length → encodeResponse r = ⟨1#1, none⟩)

/-- R144: an OK response never carries a length field that stands for anything but the true bit length,
in particular not the product modulo `2^64`. -/
def Obligations.OkNeverCarriesATruncatedLength : Prop :=
  ∀ (i : Instr) (s : State), ∃ t, exec i s = .next t ∧
    ∀ out, t.rsp = some (.ok out) →
      beValue (out.drop (out.length - 8)) = s.mem.inp.length * 8 ∧
      beValue (out.drop (out.length - 8)) < 2 ^ 64

/-- R123: PADMSG faults exactly when PAD faults, with the same fault, and otherwise gives the input
followed by what PAD gives. -/
def Obligations.PadmsgIsTheInputThenPad : Prop :=
  ∀ s : State, ∃ p m, exec .pad s = .next p ∧ exec .padmsg s = .next m ∧
    (m.rsp = some .overflow ↔ p.rsp = some .overflow) ∧
    (∀ sfx, p.rsp = some (.ok sfx) → m.rsp = some (.ok (s.mem.inp ++ sfx))) ∧
    (p.rsp ≠ some .overflow → ∃ sfx, p.rsp = some (.ok sfx))

/-- PAD depends on the length alone; of PADMSG the last `PADLEN` bytes do, and the first `L` bytes are the
input (43_operations.md section 2, the spec's inference from the pseudocode of PAD). -/
def Obligations.SuffixDependsOnTheLengthAlone : Prop :=
  ∀ s s' : State, s.mem.inp.length = s'.mem.inp.length →
    ∃ p p' m m', exec .pad s = .next p ∧ exec .pad s' = .next p' ∧ p.rsp = p'.rsp ∧
      exec .padmsg s = .next m ∧ exec .padmsg s' = .next m' ∧
      ∀ out, m.rsp = some (.ok out) → ∃ out', m'.rsp = some (.ok out') ∧
        out.drop s.mem.inp.length = out'.drop s'.mem.inp.length ∧
        out.take s.mem.inp.length = s.mem.inp ∧ out'.take s'.mem.inp.length = s'.mem.inp

/-- R124: an operation has one result. On equal inputs both instructions write the same values and give
the same response, whatever stands in every other piece of the state: earlier operations, their working
values, other requesters' commands and responses. -/
def Obligations.EarlierOperationsLeaveNoTrace : Prop :=
  ∀ (i : Instr) (s s' : State), s.mem.inp = s'.mem.inp →
    ∃ t, exec i s = .next t ∧
      exec i s' = .next { t with commands := s'.commands, delivered := s'.delivered } ∧
      ∀ r, t.rsp = some r → r = answer i s.mem.inp

/-- R127: neither operation changes anything but its own result. The frame of both instructions: the
input, every byte of it, the other commands and the responses already handed out stay; `OUT` has bytes at
the addresses below `N` and at no other; and a step from an idle CORE leaves all of CORE as it was, after
Overflow too. -/
def Obligations.OperationsChangeNothingButTheirResult : Prop :=
  (∀ (i : Instr) (s : State), ∃ t, exec i s = .next t ∧
    t.commands = s.commands ∧ t.delivered = s.delivered ∧
    (∀ a : Nat, t.mem.inp[a]? = s.mem.inp[a]?) ∧
    (∀ n, t.outLen = some n → ∀ a : Nat, (a < n ↔ ∃ b, t.mem.out[a]? = some b)) ∧
    (t.outLen = none → ∀ a : Nat, t.mem.out[a]? = none)) ∧
  (∀ s t : State, s.Idle → step s = .next t →
    { t with commands := s.commands, delivered := s.delivered } = s ∧
    s.delivered <+: t.delivered ∧ t.commands <:+ s.commands)

/-- After a command that overflows, the next command runs as if the faulting one had never been issued;
only the OVERFLOW response tells of it (60_exceptions.md section 3, the spec's inference from
statelessness; idleness: 10_state.md section 1, 70_reset_and_hazards.md section 4). The model's choices
here: the order and the requester tag of the deliveries (log 2), and that idle means no working value, `IDX`
0 and empty `IN` and `OUT`, from any state (log 4). -/
def Obligations.OverflowLeavesNothingBehind : Prop :=
  ∀ (s : State) (c c' : Command) (cs : List Command), s.commands = c :: c' :: cs →
    2 ^ 61 ≤ c.input.length →
    ∃ t u, Host.Core.run core 2 s = .next t ∧ step { s with commands := c' :: cs } = .next u ∧
      t.commands = u.commands ∧ t.mem = u.mem ∧ t.Idle ∧ u.Idle ∧
      ∃ d, u.delivered = s.delivered ++ [d] ∧
        t.delivered = s.delivered ++ [⟨c.requester, .overflow⟩, d]

/-! ## Unit BLE -/

/-- BITLEN: at or above `2^61` the flag is set and `BL` has no value; below, the flag is clear and `BL` is
the exact product, the length shifted left by three (40_bit_length_encoder.md, `BITLEN`, and its "No
truncation"; the equivalence with `2^64` is the spec's inference). -/
def Obligations.BitLengthIsExactOrAbsent : Prop :=
  ∀ L : Nat, (2 ^ 61 ≤ L → overflowFlag L = true ∧ bitLength L = none) ∧
    (L < 2 ^ 61 → overflowFlag L = false ∧ ∃ bl, bitLength L = some bl ∧ bl.toNat = L * 8 ∧
      bl = BitVec.ofNat 61 L ++ 0#3 ∧ bl.extractLsb' 0 3 = 0#3 ∧ bl.extractLsb' 3 61 = BitVec.ofNat 61 L) ∧
    (2 ^ 61 ≤ L ↔ 2 ^ 64 ≤ L * 8)

/-- In a circuit with a 64-bit length counter the flag is set exactly when one of bits 63 to 61 is
(10_state.md section 2, the flag `OVF`, the spec's inference; decision D7). -/
def Obligations.OverflowFlagIsTheTopThreeBits : Prop :=
  ∀ l : BitVec 64, overflowFlag l.toNat = true ↔ l.extractLsb' 61 3 ≠ 0#3

/-- R82 and R41: the length field is eight bytes, most significant first; byte `k` is
`BL[63-8k : 56-8k]`, which is `(BL >> 8(7-k)) mod 256`; it stands at suffix offsets `FBYTES + 1` to
`FBYTES + 8`; with the corner cases of R82. -/
def Obligations.LengthFieldIsBigEndian : Prop :=
  (∀ v : BitVec 64, (be64 v).length = 8 ∧ ∀ k : Nat, k < 8 → ∃ b : Byte, (be64 v)[k]? = some b ∧
    b = v.extractLsb' (56 - 8 * k) 8 ∧ b.toNat = (v.toNat >>> (8 * (7 - k))) % 256) ∧
  (∀ v : BitVec 64, (suffixOf v).drop ((fillerCount v).toNat + 1) = be64 v) ∧
  be64 0#64 = List.replicate 8 0x00#8 ∧
  be64 (BitVec.ofNat 64 (2 ^ 64 - 8)) = List.replicate 7 0xFF#8 ++ [0xF8#8] ∧
  be64 128#64 = List.replicate 7 0x00#8 ++ [0x80#8] ∧
  be64 (BitVec.ofNat 64 (2 ^ 32)) = [0, 0, 0, 1, 0, 0, 0, 0] ∧
  be64 24#64 = List.replicate 7 0x00#8 ++ [0x18#8]

/-- Laws of BLE: the length field read as a big-endian number is `BL`, so it tells lengths apart, and its
bytes in terms of `L` (40_bit_length_encoder.md, "Laws of BLE", marked as the spec's inference). -/
def Obligations.LengthFieldReadsBack : Prop :=
  (∀ v : BitVec 64, beValue (be64 v) = v.toNat) ∧
  (∀ v w : BitVec 64, be64 v = be64 w → v = w) ∧
  (∀ (L : Nat) (bl : BitVec 64), bitLength L = some bl →
    beValue (be64 bl) = 8 * L ∧ bl.toNat % 8 = 0 ∧
    (∀ k : Nat, k < 7 → (be64 bl)[k]? = some (BitVec.ofNat 8 (L >>> (8 * (7 - k) - 3)))) ∧
    (be64 bl)[7]? = some (BitVec.ofNat 8 (L % 32 * 8)))

/-! ## Unit MPL -/

/-- TAM is the natural-number sum, which does not wrap at the top of the contract
(41_padding_length_computer.md, `TAM`; that it is a multiple of 8 is the spec's inference). -/
def Obligations.TotalAfterMarkerDoesNotWrap : Prop :=
  ∀ (L : Nat) (bl : BitVec 64), bitLength L = some bl →
    totalAfterMarker bl = bl.toNat + 8 ∧ totalAfterMarker bl = 8 * (L + 1) ∧
    8 ≤ totalAfterMarker bl ∧ totalAfterMarker bl ≤ 2 ^ 64 ∧
    (totalAfterMarker bl = 2 ^ 64 ↔ L = 2 ^ 61 - 1)

/-- R91: `FBITS = (448 - (TAM mod 512)) mod 512` with the non-negative remainder, in 0 .. 511; the inner
difference lies in -63 .. 448; the defining congruence; the four corner cases and the example. -/
def Obligations.FillerBitsReachResidue448 : Prop :=
  ∀ tam : Nat, ((fillerBits tam).toNat : Int) = (448 - ((tam : Int) % 512)) % 512 ∧
    (fillerBits tam).toNat ≤ 511 ∧
    -63 ≤ 448 - ((tam : Int) % 512) ∧ 448 - ((tam : Int) % 512) ≤ 448 ∧
    (tam + (fillerBits tam).toNat) % 512 = 448 ∧
    (tam % 512 = 448 → fillerBits tam = 0#9) ∧ (tam % 512 = 456 → fillerBits tam = 504#9) ∧
    (tam % 512 = 0 → fillerBits tam = 448#9) ∧ (tam % 512 = 8 → fillerBits tam = 440#9) ∧
    (tam = 32 → fillerBits tam = 416#9)

/-- The three ways to carry out the subtraction give the same value, so does any wider wrapping type, and
the signed remainder does not wherever the difference is negative (41_padding_length_computer.md section
1, "without a negative intermediate", the spec's inference). -/
def Obligations.SubtractionRealisationsAgree : Prop :=
  ∀ tam : Nat,
    (fillerBits tam).toNat = (448 + 512 - tam % 512) % 512 ∧
    (fillerBits tam).toNat = (if tam % 512 ≤ 448 then 448 - tam % 512 else 960 - tam % 512) ∧
    fillerBits tam = 448#9 - BitVec.ofNat 9 tam ∧
    (∀ W : Nat, 9 < W →
      (BitVec.ofNat W 448 - BitVec.ofNat W (tam % 512)).toNat % 512 = (fillerBits tam).toNat) ∧
    (448 < tam % 512 →
      Int.tmod (448 - ((tam % 512 : Nat) : Int)) 512 ≠ ((fillerBits tam).toNat : Int))

/-- R93: the division by 8 that gives `FBYTES` is exact for every input in contract; equally a shift by
three, or bits 8 to 3; with the corner cases and the example. -/
def Obligations.FillerBytesIsAnExactEighth : Prop :=
  (∀ (L : Nat) (bl : BitVec 64), bitLength L = some bl →
    let fbits := fillerBits (totalAfterMarker bl)
    (fillerBytes fbits).toNat = fbits.toNat / 8 ∧ (fillerBytes fbits).toNat * 8 = fbits.toNat ∧
    fillerBytes fbits = fbits.extractLsb' 3 6 ∧ fillerBytes fbits = (fbits >>> 3).setWidth 6) ∧
  fillerBytes 0#9 = 0#6 ∧ fillerBytes 504#9 = 63#6 ∧ fillerBytes 416#9 = 52#6

/-- `FBITS` is always a multiple of 8 and takes exactly the values 0, 8, ..., 504
(41_padding_length_computer.md section 2, invariant and ranges; that each is reached is the spec's
inference). -/
def Obligations.FillerBitsTakesExactlyTheMultiplesOf8 : Prop :=
  (∀ (L : Nat) (bl : BitVec 64), bitLength L = some bl →
    ∃ m : Nat, m < 64 ∧ (fillerBits (totalAfterMarker bl)).toNat = 8 * m) ∧
  (∀ m : Nat, m < 64 → ∃ (L : Nat) (bl : BitVec 64), L < 64 ∧ bitLength L = some bl ∧
    (fillerBits (totalAfterMarker bl)).toNat = 8 * m)

/-- The closed forms of `FBYTES` in bytes, among them the 6-bit complement of `L + 8`, and that only
`L mod 64` matters (41_padding_length_computer.md section 2, "Closed form in bytes", the spec's
inference). -/
def Obligations.FillerBytesClosedForms : Prop :=
  ∀ (L : Nat) (bl : BitVec 64), bitLength L = some bl →
    ((fillerCount bl).toNat : Int) = (55 - ((L : Int) % 64)) % 64 ∧
    (L % 64 ≤ 55 → (fillerCount bl).toNat = 55 - L % 64) ∧
    (56 ≤ L % 64 → (fillerCount bl).toNat = 119 - L % 64) ∧
    fillerCount bl = ~~~(BitVec.ofNat 6 (L + 8)) ∧
    ∀ (L' : Nat) (bl' : BitVec 64), bitLength L' = some bl' → L' % 64 = L % 64 →
      fillerCount bl' = fillerCount bl

/-- The suffix length: `PADLEN = 1 + FBYTES + 8`, between 9 and 72, 9 exactly at `L mod 64 = 55`, 72
exactly at 56, 64 at 0 (41_padding_length_computer.md section 2, `PADLEN`; the upper bound is the spec's
inference). -/
def Obligations.SuffixLengthBounds : Prop :=
  ∀ (L : Nat) (bl : BitVec 64), bitLength L = some bl →
    ∃ sfx, suffix L = some sfx ∧ (padLength (fillerCount bl)).toNat = sfx.length ∧
      sfx.length = 1 + (fillerCount bl).toNat + 8 ∧ 9 ≤ sfx.length ∧ sfx.length ≤ 72 ∧
      (sfx.length = 9 ↔ L % 64 = 55) ∧ (sfx.length = 72 ↔ L % 64 = 56) ∧
      (sfx.length = 64 ↔ L % 64 = 0) ∧ sfx.length = (119 - L % 64) % 64 + 9

/-- The padded output is a whole number of 64-byte blocks, `((L + 8) div 64) + 1` of them, and is the
shortest such that holds the input, the marker and the length field (41_padding_length_computer.md
section 2, block alignment and minimality; closed form and minimality are the spec's inference). -/
def Obligations.PaddedLengthIsTheLeastBlockMultiple : Prop :=
  ∀ s : State, s.mem.inp.length < 2 ^ 61 → ∃ t out, exec .padmsg s = .next t ∧ t.rsp = some (.ok out) ∧
    t.outLen = some out.length ∧ out.length % 64 = 0 ∧
    out.length = 64 * ((s.mem.inp.length + 72) / 64) ∧
    out.length = 64 * ((s.mem.inp.length + 8) / 64 + 1) ∧
    s.mem.inp.length + 9 ≤ out.length ∧
    ∀ M : Nat, M % 64 = 0 → s.mem.inp.length + 9 ≤ M → out.length ≤ M

/-- `TAM` may be computed in 64 wrapping bits or in 9 bits: the filler is the same
(41_padding_length_computer.md section 2, "Wrap-insensitivity", the spec's inference). -/
def Obligations.FillerIgnoresAWrapOfTheTotal : Prop :=
  ∀ bl : BitVec 64, fillerBits (totalAfterMarker bl) = fillerBits (bl + 8#64).toNat ∧
    fillerBits (totalAfterMarker bl) = fillerBits (bl.setWidth 9 + 8#9).toNat

/-- The relation to the cited standard: `FBITS + 7` is the least number of zero bits `k` with
`l + 1 + k = 448` modulo 512 (41_padding_length_computer.md section 2; the standard's text is general
knowledge, K1, and no rule depends on it). -/
def Obligations.FillerIsTheStandardsLeastZeroCount : Prop :=
  ∀ (L : Nat) (bl : BitVec 64), bitLength L = some bl →
    let k := (fillerBits (totalAfterMarker bl)).toNat + 7
    (bl.toNat + 1 + k) % 512 = 448 ∧ ∀ j : Nat, (bl.toNat + 1 + j) % 512 = 448 → k ≤ j

/-- One row of the table of residues: `TAM mod 512`, `FBITS`, `FBYTES`, `PADLEN`, `N` for `L = r`. -/
def Sys2Proof.paddingTable : List (List Nat) :=
  [[8, 440, 55, 64, 64], [16, 432, 54, 63, 64], [24, 424, 53, 62, 64], [32, 416, 52, 61, 64],
   [40, 408, 51, 60, 64], [48, 400, 50, 59, 64], [56, 392, 49, 58, 64], [64, 384, 48, 57, 64],
   [72, 376, 47, 56, 64], [80, 368, 46, 55, 64], [88, 360, 45, 54, 64], [96, 352, 44, 53, 64],
   [104, 344, 43, 52, 64], [112, 336, 42, 51, 64], [120, 328, 41, 50, 64], [128, 320, 40, 49, 64]] ++
  [[136, 312, 39, 48, 64], [144, 304, 38, 47, 64], [152, 296, 37, 46, 64], [160, 288, 36, 45, 64],
   [168, 280, 35, 44, 64], [176, 272, 34, 43, 64], [184, 264, 33, 42, 64], [192, 256, 32, 41, 64],
   [200, 248, 31, 40, 64], [208, 240, 30, 39, 64], [216, 232, 29, 38, 64], [224, 224, 28, 37, 64],
   [232, 216, 27, 36, 64], [240, 208, 26, 35, 64], [248, 200, 25, 34, 64], [256, 192, 24, 33, 64]] ++
  [[264, 184, 23, 32, 64], [272, 176, 22, 31, 64], [280, 168, 21, 30, 64], [288, 160, 20, 29, 64],
   [296, 152, 19, 28, 64], [304, 144, 18, 27, 64], [312, 136, 17, 26, 64], [320, 128, 16, 25, 64],
   [328, 120, 15, 24, 64], [336, 112, 14, 23, 64], [344, 104, 13, 22, 64], [352, 96, 12, 21, 64],
   [360, 88, 11, 20, 64], [368, 80, 10, 19, 64], [376, 72, 9, 18, 64], [384, 64, 8, 17, 64]] ++
  [[392, 56, 7, 16, 64], [400, 48, 6, 15, 64], [408, 40, 5, 14, 64], [416, 32, 4, 13, 64],
   [424, 24, 3, 12, 64], [432, 16, 2, 11, 64], [440, 8, 1, 10, 64], [448, 0, 0, 9, 64],
   [456, 504, 63, 72, 128], [464, 496, 62, 71, 128], [472, 488, 61, 70, 128], [480, 480, 60, 69, 128],
   [488, 472, 59, 68, 128], [496, 464, 58, 67, 128], [504, 456, 57, 66, 128], [0, 448, 56, 65, 128]]

/-- The full table: for every length in contract the row of its residue holds, with `N` grown by the
whole blocks before it (41_padding_length_computer.md section 3, marked as computed from the rules). -/
def Obligations.PaddingTableHoldsForEveryLength : Prop :=
  ∀ (L : Nat) (bl : BitVec 64), bitLength L = some bl → ∃ n : Nat,
    paddingTable[L % 64]? = some [totalAfterMarker bl % 512, (fillerBits (totalAfterMarker bl)).toNat,
      (fillerCount bl).toNat, (padLength (fillerCount bl)).toNat, n] ∧
    outputLength true L (padLength (fillerCount bl)) = 64 * (L / 64) + n

/-! ## Unit BSF -/

/-- The suffix byte at every offset: marker, filler, length bytes, and no value from `PADLEN` on
(42_byte_sequence_formatter.md, `SUFBYTE`; that it is the suffix's byte is the spec's inference). -/
def Obligations.SuffixByteAtEveryOffset : Prop :=
  (∀ L j : Nat, suffixByte L j = (suffix L).bind (·[j]?)) ∧
  (∀ (L : Nat) (bl : BitVec 64) (j : Nat), bitLength L = some bl →
    (j = 0 → suffixByte L j = some 0x80#8) ∧
    (1 ≤ j → j ≤ (fillerCount bl).toNat → suffixByte L j = some 0x00#8) ∧
    ((fillerCount bl).toNat + 1 ≤ j → j ≤ (fillerCount bl).toNat + 8 →
      suffixByte L j = (be64 bl)[j - (fillerCount bl).toNat - 1]?) ∧
    (suffixByte L j = none ↔ (fillerCount bl).toNat + 9 ≤ j))

/-- The padded-output byte at every index, and the pass-through: the first `L` bytes are the input
(42_byte_sequence_formatter.md, `PADBYTE` and the pass-through; 20_memory.md section 5). -/
def Obligations.PaddedByteAtEveryIndex : Prop :=
  ∀ s : State, s.mem.inp.length < 2 ^ 61 → ∃ t, exec .padmsg s = .next t ∧
    (∀ i : Nat, t.mem.out[i]? = paddedByte s.mem.inp i) ∧
    (∀ i : Nat, i < s.mem.inp.length → t.mem.out[i]? = s.mem.inp[i]?) ∧
    (∀ i : Nat, s.mem.inp.length ≤ i → t.mem.out[i]? = suffixByte s.mem.inp.length (i - s.mem.inp.length))

/-- The byte-serial formatter gives the output of the operation: after `k` steps, `k` up to `N`, `IDX`
is `k` and `OUT` holds the first `k` bytes, and it is done exactly at `N`
(42_byte_sequence_formatter.md, sequencing; 10_state.md section 3, decision D9). -/
def Obligations.ByteSerialFormatterRefinesTheOperation : Prop :=
  ∀ (i : Instr) (s : State) (bl : BitVec 64), bitLength s.mem.inp.length = some bl →
    ∃ t N, exec i s = .next t ∧ t.outLen = some N ∧ t.mem.out.length = N ∧ t.mem.idx = N ∧
      ∀ k : Nat, k ≤ N →
        (serialRun (i == .padmsg) bl k s.startOperation).mem.idx = k ∧
        (serialRun (i == .padmsg) bl k s.startOperation).mem.out = t.mem.out.take k ∧
        (phase (i == .padmsg) s.mem.inp.length bl k = some .done ↔ k = N)

/-- The phases as ranges of `IDX`: MSG below the base, then MARKER, FILL, LEN and DONE; so they follow
one another in this order and none is entered twice (10_state.md section 3 and
42_byte_sequence_formatter.md, sequencing, decision D9). -/
def Obligations.PhasesFollowOneAnother : Prop :=
  ∀ (passThrough : Bool) (L : Nat) (bl : BitVec 64) (base F : Nat),
    base = (if passThrough then L else 0) → F = (fillerCount bl).toNat →
    ∀ k : Nat,
      (phase passThrough L bl k = some .msg ↔ k < base) ∧
      (phase passThrough L bl k = some .marker ↔ k = base) ∧
      (phase passThrough L bl k = some .fill ↔ base + 1 ≤ k ∧ k ≤ base + F) ∧
      (phase passThrough L bl k = some .len ↔ base + F + 1 ≤ k ∧ k ≤ base + F + 8) ∧
      (phase passThrough L bl k = some .done ↔ k = base + F + 9)

/-- R111: when `L mod 64 = 55` the filler is empty and the length field follows the marker at once; the
source's vector for 55 bytes: 9 bytes of suffix, 64 in all, and the bytes `80 00 .. 01 B8`. -/
def Obligations.FillerMayBeEmpty : Prop :=
  (∀ (L : Nat) (bl : BitVec 64), bitLength L = some bl → L % 64 = 55 →
    (fillerCount bl).toNat = 0 ∧ suffix L = some (0x80#8 :: be64 bl)) ∧
  suffix 55 = some [0x80#8, 0, 0, 0, 0, 0, 0, 0x01#8, 0xB8#8] ∧
  (∀ s : State, s.mem.inp.length = 55 → ∃ p m out, exec .pad s = .next p ∧
    p.rsp = some (.ok [0x80#8, 0, 0, 0, 0, 0, 0, 0x01#8, 0xB8#8]) ∧
    exec .padmsg s = .next m ∧ m.rsp = some (.ok out) ∧ out.length = 64)

/-- Marker and length field are in every suffix, a whole block of suffix is added at a block boundary,
and a padded output is never its input (42_byte_sequence_formatter.md, "present in every suffix"; the
last is the spec's inference). -/
def Obligations.EverySuffixHasMarkerAndLength : Prop :=
  ∀ s : State, s.mem.inp.length < 2 ^ 61 → ∃ p m sfx out bl, bitLength s.mem.inp.length = some bl ∧
    exec .pad s = .next p ∧ p.rsp = some (.ok sfx) ∧ exec .padmsg s = .next m ∧ m.rsp = some (.ok out) ∧
    sfx.head? = some 0x80#8 ∧ sfx.drop (sfx.length - 8) = be64 bl ∧
    out[s.mem.inp.length]? = some 0x80#8 ∧ out.drop (out.length - 8) = be64 bl ∧
    (s.mem.inp.length % 64 = 0 → sfx.length = 64) ∧ out ≠ s.mem.inp

/-- A consumer gets the input back from a padded output by reading `BL` and taking `BL / 8` bytes, so
padded outputs tell inputs apart (42_byte_sequence_formatter.md, "What a consumer can and cannot tell",
the spec's inference). -/
def Obligations.PaddedOutputGivesTheInputBack : Prop :=
  (∀ s : State, s.mem.inp.length < 2 ^ 61 → ∃ t out, exec .padmsg s = .next t ∧
    t.rsp = some (.ok out) ∧ recoverInput out = s.mem.inp) ∧
  (∀ (s s' t t' : State) (out : List Byte), exec .padmsg s = .next t → exec .padmsg s' = .next t' →
    t.rsp = some (.ok out) → t'.rsp = some (.ok out) → s.mem.inp = s'.mem.inp)

/-! ## Laws of the operations -/

/-- The source's testable properties, items 1 to 5, with the bounds and the layout that go with them:
block alignment, length round trip, minimum growth, filler congruence, and determinism (an equal input gives
byte-identical outputs, whatever else the state holds) (43_operations.md section 2; the layout clauses are
the spec's inference). -/
def Obligations.TestableProperties : Prop :=
  ∀ s : State, s.mem.inp.length < 2 ^ 61 → ∃ p m sfx out,
    exec .pad s = .next p ∧ p.rsp = some (.ok sfx) ∧ exec .padmsg s = .next m ∧ m.rsp = some (.ok out) ∧
    out.length % 64 = 0 ∧
    beValue (out.drop (out.length - 8)) = 8 * s.mem.inp.length ∧
    beValue (sfx.drop (sfx.length - 8)) = 8 * s.mem.inp.length ∧
    9 ≤ sfx.length ∧ s.mem.inp.length + 9 ≤ out.length ∧ sfx.length ≤ 72 ∧
    (8 * (sfx.length - 9) + 8 * s.mem.inp.length + 8) % 512 = 448 ∧
    sfx[0]? = some 0x80#8 ∧
    (∀ j : Nat, 1 ≤ j → j < sfx.length - 8 → sfx[j]? = some 0x00#8) ∧
    out.take s.mem.inp.length = s.mem.inp ∧
    (∀ s' : State, s'.mem.inp = s.mem.inp → ∃ p' m', exec .pad s' = .next p' ∧
      p'.rsp = some (.ok sfx) ∧ exec .padmsg s' = .next m' ∧ m'.rsp = some (.ok out))

/-- The mixed-width view of the last 8 bytes: one 64-bit number `BL`, or its two halves as big-endian
32-bit words, the upper half at the lower index (20_memory.md section 2; the halves are the spec's
inference). -/
def Obligations.LengthFieldInTwoWords : Prop :=
  ∀ (i : Instr) (s : State), s.mem.inp.length < 2 ^ 61 → ∃ t out bl, exec i s = .next t ∧
    t.rsp = some (.ok out) ∧ t.bl = some bl ∧
    beValue (out.drop (out.length - 8)) = bl.toNat ∧
    beValue ((out.drop (out.length - 8)).take 4) = (bl.extractLsb' 32 32).toNat ∧
    beValue (out.drop (out.length - 4)) = (bl.extractLsb' 0 32).toNat

/-- In blocks of 64 bytes: the marker stands at index `L`, in the last block when `L mod 64 <= 55` and in
the last but one otherwise; the length field starts at a multiple of 8 and ends the last block
(20_memory.md sections 3 and 5, the spec's inference). -/
def Obligations.MarkerAndLengthFieldInTheirBlocks : Prop :=
  ∀ s : State, s.mem.inp.length < 2 ^ 61 → ∃ t out, exec .padmsg s = .next t ∧ t.rsp = some (.ok out) ∧
    out[s.mem.inp.length]? = some 0x80#8 ∧ out.length % 64 = 0 ∧ (out.length - 8) % 8 = 0 ∧
    (s.mem.inp.length % 64 ≤ 55 → s.mem.inp.length / 64 + 1 = out.length / 64) ∧
    (56 ≤ s.mem.inp.length % 64 → s.mem.inp.length / 64 + 2 = out.length / 64)

/-- An input that is itself a padded output is padded again, by a whole block, while it is in contract
(43_operations.md section 1, last corner case of PADMSG, the spec's inference). -/
def Obligations.PaddingAPaddedOutputAddsABlock : Prop :=
  ∀ (s t s' : State) (out : List Byte), exec .padmsg s = .next t → t.rsp = some (.ok out) →
    s'.mem.inp = out → out.length < 2 ^ 61 →
    ∃ t' out', exec .padmsg s' = .next t' ∧ t'.rsp = some (.ok out') ∧ out'.length = out.length + 64

/-- The source's concrete vectors and the neighbouring residue 48, for every input of each length: empty,
3, 48, 55, 56 and 57 bytes (95_test_vectors.md part 1; the 56-byte vector as corrected by
90_conflicts.md C1). -/
def Obligations.SourceVectors : Prop :=
  ∀ s : State, ∃ t, exec .pad s = .next t ∧
    (s.mem.inp.length = 0 → t.rsp = some (.ok (0x80#8 :: List.replicate 63 0x00#8))) ∧
    (s.mem.inp.length = 3 → t.rsp = some (.ok (0x80#8 :: List.replicate 59 0x00#8 ++ [0x18#8]))) ∧
    (s.mem.inp.length = 48 → t.rsp = some (.ok (0x80#8 :: List.replicate 13 0x00#8 ++ [0x01#8, 0x80#8]))) ∧
    (s.mem.inp.length = 55 → t.rsp = some (.ok (0x80#8 :: List.replicate 6 0x00#8 ++ [0x01#8, 0xB8#8]))) ∧
    (s.mem.inp.length = 56 → t.rsp = some (.ok (0x80#8 :: List.replicate 69 0x00#8 ++ [0x01#8, 0xC0#8]))) ∧
    (s.mem.inp.length = 57 → t.rsp = some (.ok (0x80#8 :: List.replicate 68 0x00#8 ++ [0x01#8, 0xC8#8])))
end

