-- ==== Sys2Proof/Laws/State.lean ====
section
/-! SUPPORT. One lemma per field per update of the state: what each named operation leaves in each field. -/

namespace Sys2Proof.Machine

variable (s : State)

/-! `State.startOperation` -/
@[simp] theorem State.startOperation_commands : (s.startOperation).commands = s.commands := rfl
@[simp] theorem State.startOperation_mem : (s.startOperation).mem = ⟨s.mem.inp, [], 0⟩ := rfl
@[simp] theorem State.startOperation_len : (s.startOperation).len = none := rfl
@[simp] theorem State.startOperation_ovf : (s.startOperation).ovf = none := rfl
@[simp] theorem State.startOperation_bl : (s.startOperation).bl = none := rfl
@[simp] theorem State.startOperation_tam : (s.startOperation).tam = none := rfl
@[simp] theorem State.startOperation_fbits : (s.startOperation).fbits = none := rfl
@[simp] theorem State.startOperation_fbytes : (s.startOperation).fbytes = none := rfl
@[simp] theorem State.startOperation_padlen : (s.startOperation).padlen = none := rfl
@[simp] theorem State.startOperation_outLen : (s.startOperation).outLen = none := rfl
@[simp] theorem State.startOperation_rsp : (s.startOperation).rsp = none := rfl
@[simp] theorem State.startOperation_delivered : (s.startOperation).delivered = s.delivered := rfl

/-! `State.setLen` -/
@[simp] theorem State.setLen_commands (v : Nat) : (s.setLen v).commands = s.commands := rfl
@[simp] theorem State.setLen_mem (v : Nat) : (s.setLen v).mem = s.mem := rfl
@[simp] theorem State.setLen_len (v : Nat) : (s.setLen v).len = some v := rfl
@[simp] theorem State.setLen_ovf (v : Nat) : (s.setLen v).ovf = s.ovf := rfl
@[simp] theorem State.setLen_bl (v : Nat) : (s.setLen v).bl = s.bl := rfl
@[simp] theorem State.setLen_tam (v : Nat) : (s.setLen v).tam = s.tam := rfl
@[simp] theorem State.setLen_fbits (v : Nat) : (s.setLen v).fbits = s.fbits := rfl
@[simp] theorem State.setLen_fbytes (v : Nat) : (s.setLen v).fbytes = s.fbytes := rfl
@[simp] theorem State.setLen_padlen (v : Nat) : (s.setLen v).padlen = s.padlen := rfl
@[simp] theorem State.setLen_outLen (v : Nat) : (s.setLen v).outLen = s.outLen := rfl
@[simp] theorem State.setLen_rsp (v : Nat) : (s.setLen v).rsp = s.rsp := rfl
@[simp] theorem State.setLen_delivered (v : Nat) : (s.setLen v).delivered = s.delivered := rfl

/-! `State.setOvf` -/
@[simp] theorem State.setOvf_commands (v : Bool) : (s.setOvf v).commands = s.commands := rfl
@[simp] theorem State.setOvf_mem (v : Bool) : (s.setOvf v).mem = s.mem := rfl
@[simp] theorem State.setOvf_len (v : Bool) : (s.setOvf v).len = s.len := rfl
@[simp] theorem State.setOvf_ovf (v : Bool) : (s.setOvf v).ovf = some v := rfl
@[simp] theorem State.setOvf_bl (v : Bool) : (s.setOvf v).bl = s.bl := rfl
@[simp] theorem State.setOvf_tam (v : Bool) : (s.setOvf v).tam = s.tam := rfl
@[simp] theorem State.setOvf_fbits (v : Bool) : (s.setOvf v).fbits = s.fbits := rfl
@[simp] theorem State.setOvf_fbytes (v : Bool) : (s.setOvf v).fbytes = s.fbytes := rfl
@[simp] theorem State.setOvf_padlen (v : Bool) : (s.setOvf v).padlen = s.padlen := rfl
@[simp] theorem State.setOvf_outLen (v : Bool) : (s.setOvf v).outLen = s.outLen := rfl
@[simp] theorem State.setOvf_rsp (v : Bool) : (s.setOvf v).rsp = s.rsp := rfl
@[simp] theorem State.setOvf_delivered (v : Bool) : (s.setOvf v).delivered = s.delivered := rfl

/-! `State.setBl` -/
@[simp] theorem State.setBl_commands (v : BitVec 64) : (s.setBl v).commands = s.commands := rfl
@[simp] theorem State.setBl_mem (v : BitVec 64) : (s.setBl v).mem = s.mem := rfl
@[simp] theorem State.setBl_len (v : BitVec 64) : (s.setBl v).len = s.len := rfl
@[simp] theorem State.setBl_ovf (v : BitVec 64) : (s.setBl v).ovf = s.ovf := rfl
@[simp] theorem State.setBl_bl (v : BitVec 64) : (s.setBl v).bl = some v := rfl
@[simp] theorem State.setBl_tam (v : BitVec 64) : (s.setBl v).tam = s.tam := rfl
@[simp] theorem State.setBl_fbits (v : BitVec 64) : (s.setBl v).fbits = s.fbits := rfl
@[simp] theorem State.setBl_fbytes (v : BitVec 64) : (s.setBl v).fbytes = s.fbytes := rfl
@[simp] theorem State.setBl_padlen (v : BitVec 64) : (s.setBl v).padlen = s.padlen := rfl
@[simp] theorem State.setBl_outLen (v : BitVec 64) : (s.setBl v).outLen = s.outLen := rfl
@[simp] theorem State.setBl_rsp (v : BitVec 64) : (s.setBl v).rsp = s.rsp := rfl
@[simp] theorem State.setBl_delivered (v : BitVec 64) : (s.setBl v).delivered = s.delivered := rfl

/-! `State.setTam` -/
@[simp] theorem State.setTam_commands (v : Nat) : (s.setTam v).commands = s.commands := rfl
@[simp] theorem State.setTam_mem (v : Nat) : (s.setTam v).mem = s.mem := rfl
@[simp] theorem State.setTam_len (v : Nat) : (s.setTam v).len = s.len := rfl
@[simp] theorem State.setTam_ovf (v : Nat) : (s.setTam v).ovf = s.ovf := rfl
@[simp] theorem State.setTam_bl (v : Nat) : (s.setTam v).bl = s.bl := rfl
@[simp] theorem State.setTam_tam (v : Nat) : (s.setTam v).tam = some v := rfl
@[simp] theorem State.setTam_fbits (v : Nat) : (s.setTam v).fbits = s.fbits := rfl
@[simp] theorem State.setTam_fbytes (v : Nat) : (s.setTam v).fbytes = s.fbytes := rfl
@[simp] theorem State.setTam_padlen (v : Nat) : (s.setTam v).padlen = s.padlen := rfl
@[simp] theorem State.setTam_outLen (v : Nat) : (s.setTam v).outLen = s.outLen := rfl
@[simp] theorem State.setTam_rsp (v : Nat) : (s.setTam v).rsp = s.rsp := rfl
@[simp] theorem State.setTam_delivered (v : Nat) : (s.setTam v).delivered = s.delivered := rfl

/-! `State.setFbits` -/
@[simp] theorem State.setFbits_commands (v : BitVec 9) : (s.setFbits v).commands = s.commands := rfl
@[simp] theorem State.setFbits_mem (v : BitVec 9) : (s.setFbits v).mem = s.mem := rfl
@[simp] theorem State.setFbits_len (v : BitVec 9) : (s.setFbits v).len = s.len := rfl
@[simp] theorem State.setFbits_ovf (v : BitVec 9) : (s.setFbits v).ovf = s.ovf := rfl
@[simp] theorem State.setFbits_bl (v : BitVec 9) : (s.setFbits v).bl = s.bl := rfl
@[simp] theorem State.setFbits_tam (v : BitVec 9) : (s.setFbits v).tam = s.tam := rfl
@[simp] theorem State.setFbits_fbits (v : BitVec 9) : (s.setFbits v).fbits = some v := rfl
@[simp] theorem State.setFbits_fbytes (v : BitVec 9) : (s.setFbits v).fbytes = s.fbytes := rfl
@[simp] theorem State.setFbits_padlen (v : BitVec 9) : (s.setFbits v).padlen = s.padlen := rfl
@[simp] theorem State.setFbits_outLen (v : BitVec 9) : (s.setFbits v).outLen = s.outLen := rfl
@[simp] theorem State.setFbits_rsp (v : BitVec 9) : (s.setFbits v).rsp = s.rsp := rfl
@[simp] theorem State.setFbits_delivered (v : BitVec 9) : (s.setFbits v).delivered = s.delivered := rfl

/-! `State.setFbytes` -/
@[simp] theorem State.setFbytes_commands (v : BitVec 6) : (s.setFbytes v).commands = s.commands := rfl
@[simp] theorem State.setFbytes_mem (v : BitVec 6) : (s.setFbytes v).mem = s.mem := rfl
@[simp] theorem State.setFbytes_len (v : BitVec 6) : (s.setFbytes v).len = s.len := rfl
@[simp] theorem State.setFbytes_ovf (v : BitVec 6) : (s.setFbytes v).ovf = s.ovf := rfl
@[simp] theorem State.setFbytes_bl (v : BitVec 6) : (s.setFbytes v).bl = s.bl := rfl
@[simp] theorem State.setFbytes_tam (v : BitVec 6) : (s.setFbytes v).tam = s.tam := rfl
@[simp] theorem State.setFbytes_fbits (v : BitVec 6) : (s.setFbytes v).fbits = s.fbits := rfl
@[simp] theorem State.setFbytes_fbytes (v : BitVec 6) : (s.setFbytes v).fbytes = some v := rfl
@[simp] theorem State.setFbytes_padlen (v : BitVec 6) : (s.setFbytes v).padlen = s.padlen := rfl
@[simp] theorem State.setFbytes_outLen (v : BitVec 6) : (s.setFbytes v).outLen = s.outLen := rfl
@[simp] theorem State.setFbytes_rsp (v : BitVec 6) : (s.setFbytes v).rsp = s.rsp := rfl
@[simp] theorem State.setFbytes_delivered (v : BitVec 6) : (s.setFbytes v).delivered = s.delivered := rfl

/-! `State.setPadlen` -/
@[simp] theorem State.setPadlen_commands (v : BitVec 7) : (s.setPadlen v).commands = s.commands := rfl
@[simp] theorem State.setPadlen_mem (v : BitVec 7) : (s.setPadlen v).mem = s.mem := rfl
@[simp] theorem State.setPadlen_len (v : BitVec 7) : (s.setPadlen v).len = s.len := rfl
@[simp] theorem State.setPadlen_ovf (v : BitVec 7) : (s.setPadlen v).ovf = s.ovf := rfl
@[simp] theorem State.setPadlen_bl (v : BitVec 7) : (s.setPadlen v).bl = s.bl := rfl
@[simp] theorem State.setPadlen_tam (v : BitVec 7) : (s.setPadlen v).tam = s.tam := rfl
@[simp] theorem State.setPadlen_fbits (v : BitVec 7) : (s.setPadlen v).fbits = s.fbits := rfl
@[simp] theorem State.setPadlen_fbytes (v : BitVec 7) : (s.setPadlen v).fbytes = s.fbytes := rfl
@[simp] theorem State.setPadlen_padlen (v : BitVec 7) : (s.setPadlen v).padlen = some v := rfl
@[simp] theorem State.setPadlen_outLen (v : BitVec 7) : (s.setPadlen v).outLen = s.outLen := rfl
@[simp] theorem State.setPadlen_rsp (v : BitVec 7) : (s.setPadlen v).rsp = s.rsp := rfl
@[simp] theorem State.setPadlen_delivered (v : BitVec 7) : (s.setPadlen v).delivered = s.delivered := rfl

/-! `State.setOutLen` -/
@[simp] theorem State.setOutLen_commands (v : Nat) : (s.setOutLen v).commands = s.commands := rfl
@[simp] theorem State.setOutLen_mem (v : Nat) : (s.setOutLen v).mem = s.mem := rfl
@[simp] theorem State.setOutLen_len (v : Nat) : (s.setOutLen v).len = s.len := rfl
@[simp] theorem State.setOutLen_ovf (v : Nat) : (s.setOutLen v).ovf = s.ovf := rfl
@[simp] theorem State.setOutLen_bl (v : Nat) : (s.setOutLen v).bl = s.bl := rfl
@[simp] theorem State.setOutLen_tam (v : Nat) : (s.setOutLen v).tam = s.tam := rfl
@[simp] theorem State.setOutLen_fbits (v : Nat) : (s.setOutLen v).fbits = s.fbits := rfl
@[simp] theorem State.setOutLen_fbytes (v : Nat) : (s.setOutLen v).fbytes = s.fbytes := rfl
@[simp] theorem State.setOutLen_padlen (v : Nat) : (s.setOutLen v).padlen = s.padlen := rfl
@[simp] theorem State.setOutLen_outLen (v : Nat) : (s.setOutLen v).outLen = some v := rfl
@[simp] theorem State.setOutLen_rsp (v : Nat) : (s.setOutLen v).rsp = s.rsp := rfl
@[simp] theorem State.setOutLen_delivered (v : Nat) : (s.setOutLen v).delivered = s.delivered := rfl

/-! `State.emit` -/
@[simp] theorem State.emit_commands (v : Byte) : (s.emit v).commands = s.commands := rfl
@[simp] theorem State.emit_mem (v : Byte) : (s.emit v).mem = ⟨s.mem.inp, s.mem.out ++ [v], s.mem.idx + 1⟩ := rfl
@[simp] theorem State.emit_len (v : Byte) : (s.emit v).len = s.len := rfl
@[simp] theorem State.emit_ovf (v : Byte) : (s.emit v).ovf = s.ovf := rfl
@[simp] theorem State.emit_bl (v : Byte) : (s.emit v).bl = s.bl := rfl
@[simp] theorem State.emit_tam (v : Byte) : (s.emit v).tam = s.tam := rfl
@[simp] theorem State.emit_fbits (v : Byte) : (s.emit v).fbits = s.fbits := rfl
@[simp] theorem State.emit_fbytes (v : Byte) : (s.emit v).fbytes = s.fbytes := rfl
@[simp] theorem State.emit_padlen (v : Byte) : (s.emit v).padlen = s.padlen := rfl
@[simp] theorem State.emit_outLen (v : Byte) : (s.emit v).outLen = s.outLen := rfl
@[simp] theorem State.emit_rsp (v : Byte) : (s.emit v).rsp = s.rsp := rfl
@[simp] theorem State.emit_delivered (v : Byte) : (s.emit v).delivered = s.delivered := rfl

/-! `State.emitAll` -/
@[simp] theorem State.emitAll_commands (bs : List Byte) : (s.emitAll bs).commands = s.commands := rfl
@[simp] theorem State.emitAll_mem (bs : List Byte) : (s.emitAll bs).mem = ⟨s.mem.inp, s.mem.out ++ bs, s.mem.idx + bs.length⟩ := rfl
@[simp] theorem State.emitAll_len (bs : List Byte) : (s.emitAll bs).len = s.len := rfl
@[simp] theorem State.emitAll_ovf (bs : List Byte) : (s.emitAll bs).ovf = s.ovf := rfl
@[simp] theorem State.emitAll_bl (bs : List Byte) : (s.emitAll bs).bl = s.bl := rfl
@[simp] theorem State.emitAll_tam (bs : List Byte) : (s.emitAll bs).tam = s.tam := rfl
@[simp] theorem State.emitAll_fbits (bs : List Byte) : (s.emitAll bs).fbits = s.fbits := rfl
@[simp] theorem State.emitAll_fbytes (bs : List Byte) : (s.emitAll bs).fbytes = s.fbytes := rfl
@[simp] theorem State.emitAll_padlen (bs : List Byte) : (s.emitAll bs).padlen = s.padlen := rfl
@[simp] theorem State.emitAll_outLen (bs : List Byte) : (s.emitAll bs).outLen = s.outLen := rfl
@[simp] theorem State.emitAll_rsp (bs : List Byte) : (s.emitAll bs).rsp = s.rsp := rfl
@[simp] theorem State.emitAll_delivered (bs : List Byte) : (s.emitAll bs).delivered = s.delivered := rfl

/-! `State.takeOverflow` -/
@[simp] theorem State.takeOverflow_commands : (s.takeOverflow).commands = s.commands := rfl
@[simp] theorem State.takeOverflow_mem : (s.takeOverflow).mem = ⟨s.mem.inp, [], 0⟩ := rfl
@[simp] theorem State.takeOverflow_len : (s.takeOverflow).len = s.len := rfl
@[simp] theorem State.takeOverflow_ovf : (s.takeOverflow).ovf = s.ovf := rfl
@[simp] theorem State.takeOverflow_bl : (s.takeOverflow).bl = s.bl := rfl
@[simp] theorem State.takeOverflow_tam : (s.takeOverflow).tam = s.tam := rfl
@[simp] theorem State.takeOverflow_fbits : (s.takeOverflow).fbits = s.fbits := rfl
@[simp] theorem State.takeOverflow_fbytes : (s.takeOverflow).fbytes = s.fbytes := rfl
@[simp] theorem State.takeOverflow_padlen : (s.takeOverflow).padlen = s.padlen := rfl
@[simp] theorem State.takeOverflow_outLen : (s.takeOverflow).outLen = s.outLen := rfl
@[simp] theorem State.takeOverflow_rsp : (s.takeOverflow).rsp = some .overflow := rfl
@[simp] theorem State.takeOverflow_delivered : (s.takeOverflow).delivered = s.delivered := rfl

/-! `State.returnOk` -/
@[simp] theorem State.returnOk_commands : (s.returnOk).commands = s.commands := rfl
@[simp] theorem State.returnOk_mem : (s.returnOk).mem = s.mem := rfl
@[simp] theorem State.returnOk_len : (s.returnOk).len = s.len := rfl
@[simp] theorem State.returnOk_ovf : (s.returnOk).ovf = s.ovf := rfl
@[simp] theorem State.returnOk_bl : (s.returnOk).bl = s.bl := rfl
@[simp] theorem State.returnOk_tam : (s.returnOk).tam = s.tam := rfl
@[simp] theorem State.returnOk_fbits : (s.returnOk).fbits = s.fbits := rfl
@[simp] theorem State.returnOk_fbytes : (s.returnOk).fbytes = s.fbytes := rfl
@[simp] theorem State.returnOk_padlen : (s.returnOk).padlen = s.padlen := rfl
@[simp] theorem State.returnOk_outLen : (s.returnOk).outLen = s.outLen := rfl
@[simp] theorem State.returnOk_rsp : (s.returnOk).rsp = some (.ok s.mem.out) := rfl
@[simp] theorem State.returnOk_delivered : (s.returnOk).delivered = s.delivered := rfl

/-! `State.accept` -/
@[simp] theorem State.accept_commands (c : Command) (cs : List Command) : (s.accept c cs).commands = cs := rfl
@[simp] theorem State.accept_mem (c : Command) (cs : List Command) : (s.accept c cs).mem = ⟨c.input, s.mem.out, s.mem.idx⟩ := rfl
@[simp] theorem State.accept_len (c : Command) (cs : List Command) : (s.accept c cs).len = s.len := rfl
@[simp] theorem State.accept_ovf (c : Command) (cs : List Command) : (s.accept c cs).ovf = s.ovf := rfl
@[simp] theorem State.accept_bl (c : Command) (cs : List Command) : (s.accept c cs).bl = s.bl := rfl
@[simp] theorem State.accept_tam (c : Command) (cs : List Command) : (s.accept c cs).tam = s.tam := rfl
@[simp] theorem State.accept_fbits (c : Command) (cs : List Command) : (s.accept c cs).fbits = s.fbits := rfl
@[simp] theorem State.accept_fbytes (c : Command) (cs : List Command) : (s.accept c cs).fbytes = s.fbytes := rfl
@[simp] theorem State.accept_padlen (c : Command) (cs : List Command) : (s.accept c cs).padlen = s.padlen := rfl
@[simp] theorem State.accept_outLen (c : Command) (cs : List Command) : (s.accept c cs).outLen = s.outLen := rfl
@[simp] theorem State.accept_rsp (c : Command) (cs : List Command) : (s.accept c cs).rsp = s.rsp := rfl
@[simp] theorem State.accept_delivered (c : Command) (cs : List Command) : (s.accept c cs).delivered = s.delivered := rfl

/-! `State.retire` -/
@[simp] theorem State.retire_commands (q : Nat) : (s.retire q).commands = s.commands := rfl
@[simp] theorem State.retire_mem (q : Nat) : (s.retire q).mem = Memory.empty := rfl
@[simp] theorem State.retire_len (q : Nat) : (s.retire q).len = none := rfl
@[simp] theorem State.retire_ovf (q : Nat) : (s.retire q).ovf = none := rfl
@[simp] theorem State.retire_bl (q : Nat) : (s.retire q).bl = none := rfl
@[simp] theorem State.retire_tam (q : Nat) : (s.retire q).tam = none := rfl
@[simp] theorem State.retire_fbits (q : Nat) : (s.retire q).fbits = none := rfl
@[simp] theorem State.retire_fbytes (q : Nat) : (s.retire q).fbytes = none := rfl
@[simp] theorem State.retire_padlen (q : Nat) : (s.retire q).padlen = none := rfl
@[simp] theorem State.retire_outLen (q : Nat) : (s.retire q).outLen = none := rfl
@[simp] theorem State.retire_rsp (q : Nat) : (s.retire q).rsp = none := rfl
@[simp] theorem State.retire_delivered (q : Nat) : (s.retire q).delivered =
    s.delivered ++ (s.rsp.toList.map fun r => (⟨q, r⟩ : Delivery)) := by
  unfold State.retire
  cases s.rsp <;> simp

end Sys2Proof.Machine
end

