-- ==== Sys2Proof/Laws/Units.lean ====
section
/-! SUPPORT. The small lemmas of the units BLE, MPL and BSF: each unfolds one definition once. -/

namespace Sys2Proof.Machine

theorem overflowFlag_eq_true {L : Nat} : overflowFlag L = true ↔ 2 ^ 61 ≤ L :=
  decide_eq_true_iff

theorem overflowFlag_eq_false {L : Nat} : overflowFlag L = false ↔ L < 2 ^ 61 := by
  rw [overflowFlag, decide_eq_false_iff_not, Nat.not_le, Config.lengthLimit]

theorem bitLength_of_ge {L : Nat} (h : 2 ^ 61 ≤ L) : bitLength L = none := by
  simp [bitLength, overflowFlag_eq_true.mpr h]

theorem bitLength_of_lt {L : Nat} (h : L < 2 ^ 61) :
    bitLength L = some (BitVec.ofNat 64 (L * 8)) := by
  simp [bitLength, overflowFlag_eq_false.mpr h]

theorem bitLength_toNat {L : Nat} {bl : BitVec 64} (h : bitLength L = some bl) :
    L < 2 ^ 61 ∧ bl.toNat = L * 8 := by
  rcases Nat.lt_or_ge L (2 ^ 61) with hL | hL
  · rw [bitLength_of_lt hL, Option.some.injEq] at h
    subst h
    refine ⟨hL, ?_⟩
    rw [BitVec.toNat_ofNat]
    omega
  · rw [bitLength_of_ge hL] at h
    cases h

theorem be64_eq (bl : BitVec 64) :
    be64 bl = [lengthByte bl 0, lengthByte bl 1, lengthByte bl 2, lengthByte bl 3,
      lengthByte bl 4, lengthByte bl 5, lengthByte bl 6, lengthByte bl 7] := rfl

@[simp] theorem be64_length (bl : BitVec 64) : (be64 bl).length = 8 := rfl

theorem lengthByte_toNat (bl : BitVec 64) (k : Nat) :
    (lengthByte bl k).toNat = bl.toNat / 2 ^ (8 * (7 - k)) % 256 := by
  simp [lengthByte, Nat.shiftRight_eq_div_pow]

theorem totalAfterMarker_eq (bl : BitVec 64) : totalAfterMarker bl = bl.toNat + 8 := rfl

/-- Narrowing to 9 bits loses nothing. -/
theorem fillerBits_toNat (tam : Nat) :
    ((fillerBits tam).toNat : Int) = (448 - ((tam % 512 : Nat) : Int)) % 512 := by
  simp only [fillerBits, Config.residueBits, Config.blockBits, BitVec.toNat_ofNat]
  omega

/-- Narrowing to 6 bits loses nothing. -/
theorem fillerBytes_toNat (fbits : BitVec 9) : (fillerBytes fbits).toNat = fbits.toNat / 8 := by
  have := fbits.isLt
  simp only [fillerBytes, BitVec.toNat_ofNat]
  omega

/-- Narrowing to 7 bits loses nothing. -/
theorem padLength_toNat (fbytes : BitVec 6) : (padLength fbytes).toNat = fbytes.toNat + 9 := by
  have := fbytes.isLt
  simp only [padLength, Config.lengthFieldBytes, BitVec.toNat_ofNat]
  omega

@[simp] theorem zeros_length (n : Nat) : (zeros n).length = n := by
  simp [zeros]

theorem suffix_of_some {L : Nat} {bl : BitVec 64} (h : bitLength L = some bl) :
    suffix L = some (suffixOf bl) := by
  simp [suffix, h]

theorem suffixByte_of_some {L : Nat} {bl : BitVec 64} (h : bitLength L = some bl) (j : Nat) :
    suffixByte L j = suffixByteOf bl j := by
  simp [suffixByte, h]

/-- Where no padded output exists, none of its bytes does (log 14). -/
theorem paddedByte_of_none {input : List Byte} (h : bitLength input.length = none) (i : Nat) :
    paddedByte input i = none := by
  simp [paddedByte, h]

theorem paddedByte_of_some {input : List Byte} {bl : BitVec 64} (h : bitLength input.length = some bl)
    (i : Nat) : paddedByte input i =
      if i < input.length then input[i]? else suffixByteOf bl (i - input.length) := by
  simp [paddedByte, h]

theorem suffixOf_length (bl : BitVec 64) :
    (suffixOf bl).length = (padLength (fillerCount bl)).toNat := by
  simp only [suffixOf, List.length_append, List.length_singleton, zeros_length, be64_length,
    padLength_toNat]
  omega

end Sys2Proof.Machine
end

