-- ==== Sys2Proof/Laws/Ops.lean ====
section
/-! SUPPORT. What each shared operation does, once: the lengths stage, the formatter, a whole operation,
and the form of memory that all of them keep. -/

namespace Sys2Proof.Machine

theorem State.emitAll_nil (s : State) : s.emitAll [] = s := by
  simp [State.emitAll]

/-- A phase is its bytes emitted one by one (R107). -/
theorem State.emitAll_eq_foldl_emit (s : State) (bs : List Byte) :
    s.emitAll bs = bs.foldl State.emit s := by
  induction bs generalizing s with
  | nil => exact s.emitAll_nil
  | cons b bs ih =>
    rw [List.foldl_cons, ← ih (s.emit b)]
    simp [State.emit, State.emitAll, Nat.add_comm, Nat.add_assoc]

/-- What the lengths stage writes, and that it leaves the rest. -/
theorem State.computeLengths_eq (s : State) (passThrough : Bool) (L : Nat) (bl : BitVec 64) :
    s.computeLengths passThrough L bl =
      { s with
        bl := some bl
        tam := some (totalAfterMarker bl)
        fbits := some (fillerBits (totalAfterMarker bl))
        fbytes := some (fillerCount bl)
        padlen := some (padLength (fillerCount bl))
        outLen := some (outputLength passThrough L (padLength (fillerCount bl))) } := rfl

/-- What the formatter writes: the bytes passed through and the suffix, after what stands in `OUT`. -/
theorem State.format_eq (s : State) (passThrough : Bool) (bl : BitVec 64) :
    s.format passThrough bl (fillerCount bl) =
      s.emitAll ((if passThrough then s.mem.inp else []) ++ suffixOf bl) := by
  cases passThrough <;>
    simp [State.format, State.emit, State.emitAll, suffixOf, inputBytes] <;> omega

/-- The whole of an operation that overflows (R142, R143). -/
theorem State.runOperation_of_none {s : State} (passThrough : Bool)
    (h : bitLength (inputLength s) = none) :
    s.runOperation passThrough =
      ((s.startOperation.setLen (inputLength s)).setOvf (overflowFlag (inputLength s))).takeOverflow := by
  simp only [State.runOperation, h]

/-- The whole of an operation that completes (R120, R121). -/
theorem State.runOperation_of_some {s : State} (passThrough : Bool) {bl : BitVec 64}
    (h : bitLength (inputLength s) = some bl) :
    s.runOperation passThrough =
      ((((s.startOperation.setLen (inputLength s)).setOvf
        (overflowFlag (inputLength s))).computeLengths passThrough (inputLength s) bl).emitAll
          ((if passThrough then s.mem.inp else []) ++ suffixOf bl)).returnOk := by
  simp only [State.runOperation, h, State.format_eq, State.computeLengths_eq, State.setOvf_mem,
    State.setLen_mem, State.startOperation_mem]

theorem Memory.empty_wf : Memory.empty.wf := rfl

theorem State.reset_mem_wf : State.reset.mem.wf := rfl

theorem State.startOperation_mem_wf (s : State) : s.startOperation.mem.wf := rfl

theorem State.emit_mem_wf {s : State} (h : s.mem.wf) (b : Byte) : (s.emit b).mem.wf := by
  simp_all [Memory.wf]

theorem State.emitAll_mem_wf {s : State} (h : s.mem.wf) (bs : List Byte) :
    (s.emitAll bs).mem.wf := by
  simp_all [Memory.wf]

theorem State.takeOverflow_mem_wf (s : State) : s.takeOverflow.mem.wf := rfl

theorem State.accept_mem_wf {s : State} (h : s.mem.wf) (c : Command) (cs : List Command) :
    (s.accept c cs).mem.wf := h

theorem State.retire_mem_wf (s : State) (q : Nat) : (s.retire q).mem.wf := rfl

/-- A whole operation leaves memory in form, whatever it found. -/
theorem State.runOperation_mem_wf (s : State) (passThrough : Bool) :
    (s.runOperation passThrough).mem.wf := by
  cases h : bitLength (inputLength s) with
  | none =>
    rw [State.runOperation_of_none passThrough h]
    exact State.takeOverflow_mem_wf _
  | some bl =>
    rw [State.runOperation_of_some passThrough h]
    simp [Memory.wf, State.computeLengths_eq]

end Sys2Proof.Machine
end

