-- ==== Sys2Proof/Laws/PerInstr.lean ====
section
/-! SUPPORT. Statements made per instruction: one lemma per constructor. -/

namespace Sys2Proof.Laws.EncodingWellFormed

/-- The instruction is well-formed, its command word is one of the two that `OP` has (R61), and the
carrier of that word is one byte (log 7). -/
def Statement (i : Instr) : Prop :=
  i.wf = true ∧ commandWordWf (encodeOp i).toNat = true ∧ (encode i).length = 1

theorem pad : Statement .pad := by
  unfold Statement
  decide

theorem padmsg : Statement .padmsg := by
  unfold Statement
  decide

end Sys2Proof.Laws.EncodingWellFormed
end

