-- ==== Sys2Proof/Laws/Step.lean ====
section
/-! SUPPORT. What a step can do, said once: every later proof about steps cites the inversion lemma. -/

namespace Sys2Proof.Machine

/-- Both meanings are the shared operation, with `OP` as the pass-through enable (R61). -/
theorem exec_eq (i : Instr) (s : State) : exec i s = .next (s.runOperation (i == .padmsg)) := by
  cases i <;> rfl

theorem fetch_of_nil {s : State} (h : s.commands = []) : fetch s = none := by
  simp only [fetch, h]

theorem fetch_of_cons {s : State} {c : Command} {cs : List Command} (h : s.commands = c :: cs) :
    fetch s = some (c, decodeOp c.op, s.accept c cs) := by
  simp only [fetch, h]

/-- If a step answers a next state, then either no command was pending and nothing changed, or the oldest
command was run to its end and answered. -/
theorem step_cases {s t : State} (h : step s = .next t) :
    (s.commands = [] ∧ t = s) ∨
    ∃ c cs, s.commands = c :: cs ∧
      t = ((s.accept c cs).runOperation (decodeOp c.op == .padmsg)).retire c.requester := by
  cases hc : s.commands with
  | nil =>
    simp only [step, fetch_of_nil hc, Host.Outcome.next.injEq] at h
    exact .inl ⟨rfl, h.symm⟩
  | cons c cs =>
    simp only [step, fetch_of_cons hc, exec_eq, Host.Outcome.next.injEq] at h
    exact .inr ⟨c, cs, rfl, h.symm⟩

end Sys2Proof.Machine
end

