-- ==== Sys2Proof/Tests/Slice0.lean ====
section
/-! SUPPORT. The model's own tests: words and vectors written out from the spec, an ill-formed term for
each check, and for every statement with hypotheses a witness that meets them. Expected values are the
spec's (95_test_vectors.md unless a comment says otherwise). -/

namespace Sys2Proof.Tests

open Sys2Proof Sys2Proof.Machine

/-! ## Helpers -/

/-- Reset with an input in `IN`, where an instruction finds its operand. -/
def withInput (input : List Byte) : State :=
  { State.reset with mem := ⟨input, [], 0⟩ }

/-- Reset with commands pending. -/
def offering (commands : List Command) : State :=
  { State.reset with commands := commands }

/-- What a step has handed out. -/
def handedOut (o : Host.Outcome State Fault Refusal) : List Delivery :=
  match o with
  | .next t => t.delivered
  | .fault _ => []
  | .refused _ => []

/-- An input of a given length; its length is never computed by unfolding it. -/
def longInput (n : Nat) : List Byte :=
  List.replicate n 0x61#8

theorem longInput_length (n : Nat) : (longInput n).length = n :=
  List.length_replicate

/-- The bytes of `b"abc"`. -/
def abc : List Byte := [0x61#8, 0x62#8, 0x63#8]

/-! ## Decoding: words written out from the opcode map (T-ENC) -/

theorem test_decode_pad : decode [0b00000000#8] = .ok (.pad, []) := by rfl
theorem test_decode_padmsg : decode [0b00000001#8] = .ok (.padmsg, []) := by rfl
theorem test_decode_leaves_the_rest : decode [0x01#8, 0x63#8] = .ok (.padmsg, [0x63#8]) := by rfl
theorem test_decode_refuses_wider : decode [0b00000010#8] = .error .bitsBeyondOp := by rfl
theorem test_decode_refuses_nothing : decode [] = .error .noCommandWord := by rfl
theorem test_rows_do_not_overlap :
    opcodeMap.Pairwise (fun a b => ∀ w : OpWord, ¬(a.claims w = true ∧ b.claims w = true)) := by decide
theorem test_table_word_of_one_bit : decodeTableWord 1 1 = some .padmsg := by decide
theorem test_table_word_too_wide : decodeTableWord 8 2 = none := by decide

/-! ## Well-formedness: a term that each check refuses -/

theorem test_wf_instr : Instr.wf .pad = true ∧ Instr.wf .padmsg = true := by decide
theorem test_wf_refuses_wide_word : commandWordWf 2 = false := by decide
theorem test_wf_refuses_overflow_with_bytes : RawResponse.wf ⟨1#1, some [0x80#8]⟩ = false := by decide
theorem test_wf_refuses_ok_without_bytes : RawResponse.wf ⟨0#1, none⟩ = false := by decide
theorem test_wf_refuses_other_characters : Literal.wf (.str ['é']) = false := by decide
theorem test_wf_refuses_line : Line.wf ⟨.pad, .cat (.hex []) (.str ['é'])⟩ = false := by decide
theorem test_decode_response_refuses : decodeResponse ⟨1#1, some []⟩ = none := by decide

/-! ## The instructions, one step each -/

/-- S2. -/
theorem test_step_pad_abc : handedOut (step (offering [⟨7, 0#1, abc⟩])) =
    [⟨7, .ok ([0x80#8] ++ List.replicate 52 0 ++ [0, 0, 0, 0, 0, 0, 0, 0x18#8])⟩] := by decide

/-- S3 as corrected by 90_conflicts.md C1. -/
theorem test_step_pad_56 : handedOut (step (offering [⟨7, 0#1, List.replicate 56 0x61#8⟩])) =
    [⟨7, .ok ([0x80#8] ++ List.replicate 63 0 ++ [0, 0, 0, 0, 0, 0, 0x01#8, 0xC0#8])⟩] := by decide

/-- T-OP, `PADMSG 80 00`: the first `80` is input, the second the marker. -/
theorem test_step_padmsg_80_00 : handedOut (step (offering [⟨7, 1#1, [0x80#8, 0x00#8]⟩])) =
    [⟨7, .ok ([0x80#8, 0x00#8, 0x80#8] ++ List.replicate 60 0 ++ [0x10#8])⟩] := by decide

/-- T-OP, `PADMSG 61*63`: the marker is the last byte of block 0. -/
theorem test_step_padmsg_63 : handedOut (step (offering [⟨7, 1#1, List.replicate 63 0x61#8⟩])) =
    [⟨7, .ok (List.replicate 63 0x61#8 ++ [0x80#8] ++ List.replicate 62 0 ++ [0x01#8, 0xF8#8])⟩] := by
  decide

/-- P1: the trace of every working value of `PAD b"abc"`. -/
theorem test_trace_of_pad_abc : ∃ t, exec .pad (withInput abc) = .next t ∧ t.len = some 3 ∧
    t.ovf = some false ∧ t.bl = some 24#64 ∧ t.tam = some 32 ∧ t.fbits = some 416#9 ∧
    t.fbytes = some 52#6 ∧ t.padlen = some 61#7 ∧ t.outLen = some 61 ∧ t.mem.idx = 61 :=
  ⟨_, rfl, by decide⟩

/-- T-EXC: the smallest rejected length, answered with OVERFLOW and no byte. -/
theorem test_overflow_of_padmsg : ∃ t, exec .padmsg (withInput (longInput (2 ^ 61))) = .next t ∧
    t.rsp = some .overflow ∧ t.mem.out = [] ∧ t.bl = none := by
  have h : bitLength (inputLength (withInput (longInput (2 ^ 61)))) = none :=
    bitLength_of_ge (Nat.le_of_eq (longInput_length _).symm)
  refine ⟨_, exec_eq _ _, ?_⟩
  rw [State.runOperation_of_none _ h]
  exact ⟨rfl, rfl, rfl⟩

/-! ## Fetch words -/

theorem test_withFetchWord_pad : handedOut (step (State.reset.withFetchWord 8 0)) =
    [⟨0, .ok (0x80#8 :: List.replicate 63 0)⟩] := by decide
theorem test_withFetchWord_keeps_operand :
    ((offering [⟨3, 0#1, abc⟩]).withFetchWord 8 1).commands = [⟨3, 1#1, abc⟩] := by decide

/-! ## Units (T-BLE, T-MPL, T-BSF) -/

theorem test_be64_2_pow_29 : (bitLength (2 ^ 29)).map be64 = some [0, 0, 0, 1, 0, 0, 0, 0] := by decide
theorem test_bitLength_at_limit : bitLength (2 ^ 61) = none := by decide
theorem test_fillerBits_negative_difference : fillerBits 456 = 504#9 := by decide
theorem test_suffixByte_last : suffixByte 3 60 = some 0x18#8 ∧ suffixByte 3 61 = none := by decide
theorem test_paddedByte : paddedByte abc 2 = some 0x63#8 ∧ paddedByte abc 3 = some 0x80#8 ∧
    paddedByte abc 63 = some 0x18#8 := by decide
/-- Log 14: no padded output exists, so no byte of it does. -/
theorem test_paddedByte_on_overflow : paddedByte (longInput (2 ^ 61)) 0 = none :=
  paddedByte_of_none (bitLength_of_ge (Nat.le_of_eq (longInput_length _).symm)) 0
theorem test_phase_boundaries : phase false 3 24#64 52 = some .fill ∧ phase false 3 24#64 53 = some .len ∧
    phase false 3 24#64 61 = some .done := by decide
/-- S4: with an empty filler the length field follows the marker. -/
theorem test_serial_step_after_marker :
    (serialRun false 440#64 2 (withInput (longInput 55))).mem = ⟨longInput 55, [0x80#8, 0x00#8], 2⟩ := by
  decide

/-! ## Notation -/

theorem test_literal_abc : denotes (.str ['a', 'b', 'c']) abc = true := by decide
theorem test_literal_other_character : denotes (.str ['é']) [0xE9#8] = false := by decide
theorem test_line : lineDenotes ⟨.padmsg, .cat (.copies 0x61#8 2) (.anyOfLength 1)⟩
    ⟨0, 1#1, [0x61#8, 0x61#8, 0x05#8]⟩ = true := by decide
theorem test_response_text : responseText (.ok [0x80#8, 0xC0#8]) = ['O', 'K', ' ', '8', '0', ' ', 'C', '0'] := by
  decide
theorem test_empty_text : hexText [] = ['-'] := by decide

/-! ## Witnesses: states and operands that meet the hypotheses of the statements -/

theorem witness_EveryCommandWordIsExactlyOneOperation :
    (0#8 : Byte).toNat < 2 ∧ (1#8 : Byte).toNat < 2 ∧ 2 ≤ (2#8 : Byte).toNat ∧ 2 ≤ (255#8 : Byte).toNat := by
  decide

theorem witness_DecodeAndEncodeAgree :
    Instr.wf .pad = true ∧ Instr.wf .padmsg = true ∧ decode [0x01#8, 0x07#8] = .ok (.padmsg, [0x07#8]) :=
  ⟨rfl, rfl, rfl⟩

theorem witness_ResponsePartsRoundTrip : decodeResponse ⟨0#1, some [0x80#8]⟩ = some (.ok [0x80#8]) ∧
    decodeResponse ⟨1#1, none⟩ = some .overflow := by decide

theorem witness_StepRunsTheDecodedCommand :
    (offering [⟨1, 1#1, abc⟩, ⟨2, 0#1, []⟩]).commands = ⟨1, 1#1, abc⟩ :: [⟨2, 0#1, []⟩] ∧
    ∃ t r, exec (decodeOp 1#1) { offering [⟨1, 1#1, abc⟩, ⟨2, 0#1, []⟩] with
      commands := [⟨2, 0#1, []⟩], mem := ⟨abc, [], 0⟩ } = .next t ∧ t.rsp = some r :=
  ⟨rfl, _, _, rfl, rfl⟩

theorem witness_StepWithoutCommandChangesNothing : State.reset.commands = [] := rfl

theorem witness_StepAnswersTheOldestCommandAndNothingElse :
    (offering [⟨1, 1#1, abc⟩]).Idle ∧ (offering [⟨1, 1#1, abc⟩]).commands = ⟨1, 1#1, abc⟩ :: [] := by decide

theorem witness_RunAnswersEveryPendingCommand : (offering [⟨1, 1#1, abc⟩]).commands ≠ [] := by decide

theorem witness_OtherRequestersAreInvisible :
    (offering [⟨1, 0#1, abc⟩, ⟨2, 1#1, [0x80#8]⟩]).pendingOf 1 = (offering [⟨1, 0#1, abc⟩]).pendingOf 1 ∧
    (offering [⟨1, 0#1, abc⟩, ⟨2, 1#1, [0x80#8]⟩]).deliveredTo 1 = (offering [⟨1, 0#1, abc⟩]).deliveredTo 1 ∧
    ∃ t t', Host.Core.run core 2 (offering [⟨1, 0#1, abc⟩, ⟨2, 1#1, [0x80#8]⟩]) = .next t ∧
      Host.Core.run core 1 (offering [⟨1, 0#1, abc⟩]) = .next t' :=
  ⟨by decide, by decide, _, _, rfl, rfl⟩

theorem witness_StepsKeepTheMachineSafe :
    (offering [⟨1, 1#1, abc⟩]).Safe ∧ ∃ t, step (offering [⟨1, 1#1, abc⟩]) = .next t :=
  ⟨⟨by decide, fun _ h => nomatch h⟩, _, rfl⟩

theorem witness_MemoryFormHoldsAfterEveryOperation :
    (offering [⟨1, 1#1, abc⟩]).mem.wf ∧ ∃ t, step (offering [⟨1, 1#1, abc⟩]) = .next t :=
  ⟨rfl, _, rfl⟩

theorem witness_FirstOperationNeedsNoWarmUp :
    (offering [⟨1, 0#1, abc⟩]).commands = ⟨1, 0#1, abc⟩ :: [] := rfl

/-- Both branches of the result statements at their boundaries, and the lengths of the corner clauses. -/
theorem witness_PadGivesTheSuffixOrOverflow (n : Nat)
    (_ : n = 0 ∨ n = 55 ∨ n = 56 ∨ n = 2 ^ 61 - 1 ∨ n = 2 ^ 61) :
    ∃ F sfx, (withInput (longInput n)).mem.inp.length = n ∧
      F = ((448 - (((n * 8 + 8) % 512 : Nat) : Int)) % 512).toNat ∧
      sfx = [0x80#8] ++ List.replicate (F / 8) 0x00#8 ++ be64 (BitVec.ofNat 64 (n * 8)) :=
  ⟨_, _, longInput_length n, rfl, rfl⟩

theorem witness_PadGivesTheSuffixOrOverflow_ranges : (0 : Nat) < 2 ^ 61 ∧ 2 ^ 61 - 1 < 2 ^ 61 ∧
    2 ^ 61 ≤ 2 ^ 61 ∧ 55 % 64 = 55 ∧ 56 % 64 = 56 := by decide

theorem witness_PadmsgGivesTheInputAndTheSuffixOrOverflow (n : Nat)
    (_ : n = 0 ∨ n = 55 ∨ n = 56 ∨ n = 2 ^ 61 - 1 ∨ n = 2 ^ 61) :
    ∃ F m, (withInput (longInput n)).mem.inp.length = n ∧
      F = ((448 - (((n * 8 + 8) % 512 : Nat) : Int)) % 512).toNat ∧
      m = (withInput (longInput n)).mem.inp ++ [0x80#8] ++ List.replicate (F / 8) 0x00#8 ++
        be64 (BitVec.ofNat 64 (n * 8)) :=
  ⟨_, _, longInput_length n, rfl, rfl⟩

theorem witness_OverflowIsTakenAsTheSpecSays :
    2 ^ 61 ≤ (withInput (longInput (2 ^ 61))).mem.inp.length :=
  Nat.le_of_eq (longInput_length _).symm

theorem witness_OverflowExactlyFromTwoToTheSixtyOne :
    (withInput (longInput 2305843009213693951)).mem.inp.length = 2305843009213693951 ∧
    (withInput (longInput 2305843009213693952)).mem.inp.length = 2305843009213693952 :=
  ⟨longInput_length _, longInput_length _⟩

theorem witness_StatusBitTellsTheOutcome : (withInput abc).mem.inp.length < 2 ^ 61 ∧
    2 ^ 61 ≤ (withInput (longInput (2 ^ 61))).mem.inp.length :=
  ⟨by decide, Nat.le_of_eq (longInput_length _).symm⟩

theorem witness_OkNeverCarriesATruncatedLength :
    ∃ t out, exec .padmsg (withInput abc) = .next t ∧ t.rsp = some (.ok out) :=
  ⟨_, _, rfl, rfl⟩

theorem witness_PadmsgIsTheInputThenPad :
    ∃ p sfx, exec .pad (withInput abc) = .next p ∧ p.rsp = some (.ok sfx) :=
  ⟨_, _, rfl, rfl⟩

theorem witness_SuffixDependsOnTheLengthAlone :
    (withInput abc).mem.inp.length = (withInput [0x80#8, 0x80#8, 0x80#8]).mem.inp.length ∧
    ∃ m out, exec .padmsg (withInput abc) = .next m ∧ m.rsp = some (.ok out) :=
  ⟨rfl, _, _, rfl, rfl⟩

theorem witness_EarlierOperationsLeaveNoTrace :
    (withInput abc).mem.inp = { withInput abc with bl := some 5#64, ovf := some true }.mem.inp ∧
    ∃ t r, exec .pad (withInput abc) = .next t ∧ t.rsp = some r :=
  ⟨rfl, _, _, rfl, rfl⟩

theorem witness_OperationsChangeNothingButTheirResult :
    (∃ t n, exec .pad (withInput abc) = .next t ∧ t.outLen = some n) ∧
    (∃ t, exec .pad (withInput (longInput (2 ^ 61))) = .next t ∧ t.outLen = none) ∧
    (offering [⟨1, 1#1, abc⟩]).Idle ∧ ∃ t, step (offering [⟨1, 1#1, abc⟩]) = .next t := by
  refine ⟨⟨_, _, rfl, rfl⟩, ⟨_, exec_eq _ _, ?_⟩, by decide, _, rfl⟩
  rw [State.runOperation_of_none _ (bitLength_of_ge (Nat.le_of_eq (longInput_length _).symm))]
  rfl

theorem witness_OverflowLeavesNothingBehind :
    (offering [⟨1, 1#1, longInput (2 ^ 61)⟩, ⟨2, 0#1, abc⟩]).commands =
      ⟨1, 1#1, longInput (2 ^ 61)⟩ :: ⟨2, 0#1, abc⟩ :: [] ∧ 2 ^ 61 ≤ (longInput (2 ^ 61)).length :=
  ⟨rfl, Nat.le_of_eq (longInput_length _).symm⟩

theorem witness_BitLengthIsExactOrAbsent : (2 ^ 61 : Nat) ≤ 2 ^ 61 ∧ (2 ^ 61 - 1 : Nat) < 2 ^ 61 := by decide

/-- The hypothesis `bitLength L = some bl` of TotalAfterMarkerDoesNotWrap, FillerBytesIsAnExactEighth,
FillerBitsTakesExactlyTheMultiplesOf8, SuffixLengthBounds and PaddingTableHoldsForEveryLength, at the empty
input, both sides of the block boundary, a residue 0, 55, 56 above 64 bytes, and the largest length in
contract. -/
theorem witness_bitLength_has_a_value : bitLength 0 = some 0#64 ∧ bitLength 55 = some 440#64 ∧
    bitLength 56 = some 448#64 ∧ bitLength 64 = some 512#64 ∧ bitLength 119 = some 952#64 ∧
    bitLength 120 = some 960#64 ∧ bitLength (2 ^ 61 - 1) = some 0xFFFFFFFFFFFFFFF8#64 := by decide

theorem witness_LengthFieldReadsBack : be64 24#64 = be64 (16#64 + 8#64) ∧ bitLength 3 = some 24#64 := by
  decide

theorem witness_FillerBitsReachResidue448 :
    448 % 512 = 448 ∧ 968 % 512 = 456 ∧ 512 % 512 = 0 ∧ 520 % 512 = 8 := by decide

theorem witness_SubtractionRealisationsAgree : 9 < 10 ∧ 448 < 456 % 512 ∧ 456 % 512 ≤ 511 := by decide

theorem witness_FillerBytesClosedForms : bitLength 55 = some 440#64 ∧ bitLength 119 = some 952#64 ∧
    119 % 64 = 55 % 64 ∧ 55 % 64 ≤ 55 ∧ 56 ≤ 56 % 64 := by decide

theorem witness_PaddedLengthIsTheLeastBlockMultiple :
    (withInput abc).mem.inp.length < 2 ^ 61 ∧ 128 % 64 = 0 ∧ (withInput abc).mem.inp.length + 9 ≤ 128 := by
  decide

theorem witness_FillerIsTheStandardsLeastZeroCount :
    bitLength 3 = some 24#64 ∧ ((24#64 : BitVec 64).toNat + 1 + 423) % 512 = 448 := by decide

theorem witness_SuffixByteAtEveryOffset : bitLength 3 = some 24#64 ∧ (fillerCount 24#64).toNat = 52 ∧
    1 ≤ 52 ∧ 52 ≤ 52 ∧ 52 + 1 ≤ 53 ∧ 60 ≤ 52 + 8 ∧ 52 + 9 ≤ 61 := by decide

theorem witness_PaddedByteAtEveryIndex : (withInput abc).mem.inp.length < 2 ^ 61 ∧
    2 < (withInput abc).mem.inp.length ∧ (withInput abc).mem.inp.length ≤ 3 := by decide

theorem witness_ByteSerialFormatterRefinesTheOperation :
    bitLength (withInput abc).mem.inp.length = some 24#64 ∧
    ∃ t, exec .padmsg (withInput abc) = .next t ∧ t.outLen = some 64 ∧ 0 ≤ 64 ∧ 64 ≤ 64 :=
  ⟨by decide, _, rfl, by decide⟩

theorem witness_PhasesFollowOneAnother :
    3 = (if true then 3 else 0) ∧ 52 = (fillerCount 24#64).toNat := by decide

theorem witness_FillerMayBeEmpty :
    bitLength 55 = some 440#64 ∧ 55 % 64 = 55 ∧ (withInput (longInput 55)).mem.inp.length = 55 := by decide

theorem witness_EverySuffixHasMarkerAndLength : (withInput []).mem.inp.length < 2 ^ 61 ∧
    (withInput []).mem.inp.length % 64 = 0 := by decide

theorem witness_PaddedOutputGivesTheInputBack : (withInput abc).mem.inp.length < 2 ^ 61 ∧
    ∃ t t' out, exec .padmsg (withInput abc) = .next t ∧
      exec .padmsg { withInput abc with delivered := [⟨4, .overflow⟩] } = .next t' ∧
      t.rsp = some (.ok out) ∧ t'.rsp = some (.ok out) :=
  ⟨by decide, _, _, _, rfl, rfl, rfl, rfl⟩

theorem witness_TestableProperties :
    (withInput abc).mem.inp.length < 2 ^ 61 ∧ (1 : Nat) ≤ 1 ∧ (1 : Nat) < 61 - 8 ∧
    { withInput abc with delivered := [⟨4, .overflow⟩] }.mem.inp = (withInput abc).mem.inp := by decide

theorem witness_LengthFieldInTwoWords : (withInput abc).mem.inp.length < 2 ^ 61 := by decide

theorem witness_MarkerAndLengthFieldInTheirBlocks :
    (withInput (longInput 55)).mem.inp.length % 64 ≤ 55 ∧
    56 ≤ (withInput (longInput 56)).mem.inp.length % 64 ∧
    (withInput (longInput 56)).mem.inp.length < 2 ^ 61 := by decide

theorem witness_PaddingAPaddedOutputAddsABlock :
    ∃ t out, exec .padmsg (withInput abc) = .next t ∧ t.rsp = some (.ok out) ∧
      (withInput out).mem.inp = out ∧ out.length < 2 ^ 61 :=
  ⟨_, _, rfl, rfl, rfl, by decide⟩

theorem witness_SourceVectors (n : Nat)
    (_ : n = 0 ∨ n = 3 ∨ n = 48 ∨ n = 55 ∨ n = 56 ∨ n = 57) :
    (withInput (longInput n)).mem.inp.length = n :=
  longInput_length n

theorem witness_OperandLiteralsDenote : denotes (.cat (.hex [0x61#8]) (.anyOfLength 2)) abc = true ∧
    denotes (.copies 0x61#8 2) [0x61#8, 0x61#8] = true := by decide

end Sys2Proof.Tests
end

section
/-! Proofs about unit BLE (40_bit_length_encoder.md): the bytes of the length field, and its place at the
end of the suffix. -/

namespace Sys2Proof.Machine

theorem be64_getElem? (bl : BitVec 64) {k : Nat} (hk : k < 8) :
    (be64 bl)[k]? = some (lengthByte bl k) := by
  simp [be64, Config.lengthFieldBytes, List.getElem?_range hk]

/-- The shift of R41 is the slice of R82: `8 * (7 - k)` is `56 - 8 * k`. -/
theorem lengthByte_eq_extractLsb' (bl : BitVec 64) (k : Nat) :
    lengthByte bl k = bl.extractLsb' (56 - 8 * k) 8 := by
  have hshift : 8 * (7 - k) = 56 - 8 * k := by omega
  rw [lengthByte, hshift, BitVec.setWidth_ushiftRight_eq_extractLsb]

/-- Behind the marker and the filler, the suffix is the length field and nothing more. -/
theorem suffixOf_drop_fillerCount (bl : BitVec 64) :
    (suffixOf bl).drop ((fillerCount bl).toNat + 1) = be64 bl :=
  List.drop_left' (by simp)

end Sys2Proof.Machine

namespace Sys2Proof

open Machine

/-- Settles O30: a byte of the field is `lengthByte`, read as a slice and as a number; its place follows
from the order of the suffix's phases, and the corner cases evaluate. -/
theorem lengthFieldIsBigEndian : Obligations.LengthFieldIsBigEndian := by
  unfold Obligations.LengthFieldIsBigEndian
  refine ⟨fun v => ⟨be64_length v, fun k hk => ⟨lengthByte v k, be64_getElem? v hk,
    lengthByte_eq_extractLsb' v k, ?_⟩⟩, suffixOf_drop_fillerCount, ?_⟩
  · rw [lengthByte_toNat, Nat.shiftRight_eq_div_pow]
  · decide

end Sys2Proof
end

section
/-! Proofs about unit MPL (41_padding_length_computer.md): the filler in bits reaches the residue 448, and
is a whole number of bytes. -/

namespace Sys2Proof.Machine

/-- The integer cast of `fillerBits_toNat` pushed inward, to the remainder R91 is written with. -/
theorem fillerBits_toNat_int (tam : Nat) :
    ((fillerBits tam).toNat : Int) = (448 - (tam : Int) % 512) % 512 := by
  rw [fillerBits_toNat, Int.natCast_emod, Nat.cast_ofNat]

/-- `FBITS` sees only the residue of `TAM`, so a corner case of R91 is one evaluation. -/
theorem fillerBits_of_mod {tam r : Nat} (h : tam % 512 = r) : fillerBits tam = fillerBits r := by
  simp only [← h, fillerBits, Config.blockBits, Nat.mod_mod]

/-- The defining property of R91. -/
theorem add_fillerBits_mod (tam : Nat) : (tam + (fillerBits tam).toNat) % 512 = 448 := by
  have h := fillerBits_toNat_int tam
  omega

/-- The last step of R94's sketch: 8 divides 512 and 448, so `TAM` and `FBITS` are multiples of 8
together. -/
theorem dvd_fillerBits {tam : Nat} (h : 8 ∣ tam) : 8 ∣ (fillerBits tam).toNat := by
  have hsum := add_fillerBits_mod tam
  omega

/-- The first step of R94's sketch: a bit length counts whole bytes, and so does the marker. -/
theorem dvd_totalAfterMarker {L : Nat} {bl : BitVec 64} (h : bitLength L = some bl) :
    8 ∣ totalAfterMarker bl := by
  obtain ⟨-, hbl⟩ := bitLength_toNat h
  rw [totalAfterMarker_eq, hbl]
  omega

/-- The quotient of R93 is the slice: `FBYTES` holds all six bits above the low three of `FBITS`. -/
theorem fillerBytes_eq_extractLsb' (fbits : BitVec 9) : fillerBytes fbits = fbits.extractLsb' 3 6 := by
  apply BitVec.eq_of_toNat_eq
  rw [BitVec.extractLsb'_toNat, Nat.shiftRight_eq_div_pow]
  rfl

end Sys2Proof.Machine

namespace Sys2Proof

open Machine

/-- Settles O33: the formula and the congruence are lemmas about `fillerBits`, the bounds those of a
remainder, and each corner case evaluates at its residue. -/
theorem fillerBitsReachResidue448 : Obligations.FillerBitsReachResidue448 := by
  unfold Obligations.FillerBitsReachResidue448
  intro tam
  have hle : (fillerBits tam).toNat ≤ 511 := Nat.le_of_lt_succ (fillerBits tam).isLt
  exact ⟨fillerBits_toNat_int tam, hle, by omega, by omega, add_fillerBits_mod tam,
    fun h => (fillerBits_of_mod h).trans (by decide),
    fun h => (fillerBits_of_mod h).trans (by decide),
    fun h => (fillerBits_of_mod h).trans (by decide),
    fun h => (fillerBits_of_mod h).trans (by decide),
    fun h => (congrArg fillerBits h).trans (by decide)⟩

/-- Settles O35: `TAM` is a multiple of 8, hence so is `FBITS` and the quotient loses no remainder; the
slice is the shift narrowed to six bits, and the corner cases evaluate. -/
theorem fillerBytesIsAnExactEighth : Obligations.FillerBytesIsAnExactEighth := by
  unfold Obligations.FillerBytesIsAnExactEighth
  refine ⟨fun L bl h => ?_, by decide⟩
  have hexact := dvd_fillerBits (dvd_totalAfterMarker h)
  refine ⟨fillerBytes_toNat _, ?_, fillerBytes_eq_extractLsb' _, ?_⟩
  · rw [fillerBytes_toNat, Nat.div_mul_cancel hexact]
  · rw [fillerBytes_eq_extractLsb', BitVec.setWidth_ushiftRight_eq_extractLsb]

end Sys2Proof
end

section
/-! Proofs about unit BSF (42_byte_sequence_formatter.md): the empty filler of R111, and what an operation
that completes answers. -/

namespace Sys2Proof.Machine

/-- At residue 55 the marker already reaches residue 448, so no filler bit is left to add. -/
theorem fillerCount_of_mod_eq_55 {L : Nat} {bl : BitVec 64} (h : bitLength L = some bl)
    (hmod : L % 64 = 55) : fillerCount bl = 0#6 := by
  obtain ⟨-, hbl⟩ := bitLength_toNat h
  have htam : totalAfterMarker bl % 512 = 448 := by
    rw [totalAfterMarker_eq, hbl]
    omega
  rw [fillerCount, fillerBits_of_mod htam]
  decide

theorem suffixOf_of_fillerCount_eq_zero {bl : BitVec 64} (h : fillerCount bl = 0#6) :
    suffixOf bl = 0x80#8 :: be64 bl := by
  rw [suffixOf, h]
  rfl

/-- The response of an operation that completes: the bytes passed through, then the suffix. -/
theorem State.runOperation_rsp_of_some {s : State} (passThrough : Bool) {bl : BitVec 64}
    (h : bitLength s.mem.inp.length = some bl) :
    (s.runOperation passThrough).rsp =
      some (.ok ((if passThrough then s.mem.inp else []) ++ suffixOf bl)) := by
  rw [State.runOperation_of_some passThrough h]
  simp [State.computeLengths_eq]

end Sys2Proof.Machine

namespace Sys2Proof

open Machine

/-- Settles O47: at residue 55 the filler count is 0, and the suffix is what is then left of it. For 55
bytes the length field of 440 evaluates, and both instructions answer with that suffix. -/
theorem fillerMayBeEmpty : Obligations.FillerMayBeEmpty := by
  unfold Obligations.FillerMayBeEmpty
  have hbl : bitLength 55 = some 440#64 := bitLength_of_lt (by decide)
  have hsfx : suffixOf 440#64 = [0x80#8, 0, 0, 0, 0, 0, 0, 0x01#8, 0xB8#8] :=
    (suffixOf_of_fillerCount_eq_zero (fillerCount_of_mod_eq_55 hbl rfl)).trans (by decide)
  refine ⟨fun L bl h hmod => ?_, ?_, fun s hs => ?_⟩
  · have hzero := fillerCount_of_mod_eq_55 h hmod
    exact ⟨by rw [hzero]; rfl,
      (suffix_of_some h).trans (congrArg some (suffixOf_of_fillerCount_eq_zero hzero))⟩
  · rw [suffix_of_some hbl, hsfx]
  · have hin : bitLength s.mem.inp.length = some 440#64 := hs ▸ hbl
    refine ⟨_, _, s.mem.inp ++ suffixOf 440#64, exec_eq .pad s, ?_, exec_eq .padmsg s,
      State.runOperation_rsp_of_some true hin, ?_⟩
    · have hpad := State.runOperation_rsp_of_some false hin
      rwa [hsfx] at hpad
    · rw [List.length_append, hs, hsfx]
      rfl

end Sys2Proof
end

section
/-! What a whole operation answers (43_operations.md section 1): its final state on either path, written
out, and from it the response, the frame and the one result that equal inputs have. -/

namespace Sys2Proof.Machine

/-- The final state of an operation that completes (R120, R121): every working value, `OUT` and `RSP`. -/
theorem State.runOperation_eq_of_some {s : State} (passThrough : Bool) {bl : BitVec 64} {out : List Byte}
    (h : bitLength s.mem.inp.length = some bl)
    (hout : out = (if passThrough then s.mem.inp else []) ++ suffixOf bl) :
    s.runOperation passThrough = { s with
      mem := { inp := s.mem.inp, out := out, idx := out.length }
      len := some s.mem.inp.length, ovf := some false, bl := some bl
      tam := some (totalAfterMarker bl), fbits := some (fillerBits (totalAfterMarker bl))
      fbytes := some (fillerCount bl), padlen := some (padLength (fillerCount bl))
      outLen := some (outputLength passThrough s.mem.inp.length (padLength (fillerCount bl)))
      rsp := some (.ok out) } := by
  obtain ⟨hlt, -⟩ := bitLength_toNat h
  have hovf : overflowFlag (inputLength s) = false := overflowFlag_eq_false.mpr hlt
  have hmem : (⟨s.mem.inp, [] ++ out, 0 + out.length⟩ : Memory) = ⟨s.mem.inp, out, out.length⟩ := by
    rw [List.nil_append, Nat.zero_add]
  rw [State.runOperation_of_some passThrough h, State.computeLengths_eq, hovf, ← hout, ← hmem]
  rfl

/-- The final state of an operation that overflows (R142, R143): `L`, `OVF` and the response. -/
theorem State.runOperation_eq_of_none {s : State} (passThrough : Bool)
    (h : bitLength s.mem.inp.length = none) :
    s.runOperation passThrough = { s with
      mem := { inp := s.mem.inp, out := [], idx := 0 }
      len := some s.mem.inp.length, ovf := some true
      bl := none, tam := none, fbits := none, fbytes := none, padlen := none, outLen := none
      rsp := some .overflow } := by
  have hge : 2 ^ 61 ≤ s.mem.inp.length := by
    by_contra hlt
    rw [bitLength_of_lt (Nat.lt_of_not_le hlt)] at h
    cases h
  have hovf : overflowFlag (inputLength s) = true := overflowFlag_eq_true.mpr hge
  rw [State.runOperation_of_none passThrough h, hovf]
  rfl

/-! The pure function on either path -/

theorem answer_of_none (i : Instr) {input : List Byte} (h : bitLength input.length = none) :
    answer i input = .overflow := by
  simp [answer, suffix, h]

theorem answer_pad_of_some {input : List Byte} {bl : BitVec 64}
    (h : bitLength input.length = some bl) : answer .pad input = .ok (suffixOf bl) := by
  simp [answer, suffix_of_some h]

theorem answer_padmsg_of_some {input : List Byte} {bl : BitVec 64}
    (h : bitLength input.length = some bl) : answer .padmsg input = .ok (input ++ suffixOf bl) := by
  simp [answer, suffix_of_some h]

/-- Every operation answers, and its response is the function of `OP` and `IN` (R124). -/
theorem State.runOperation_rsp (i : Instr) (s : State) :
    (s.runOperation (i == .padmsg)).rsp = some (answer i s.mem.inp) := by
  cases h : bitLength s.mem.inp.length with
  | none => rw [State.runOperation_eq_of_none _ h, answer_of_none i h]
  | some bl =>
    rw [State.runOperation_rsp_of_some _ h]
    cases i with
    | pad => rw [answer_pad_of_some h]; rfl
    | padmsg => rw [answer_padmsg_of_some h]; rfl

/-- An operation reads nothing but `IN`, so equal inputs differ afterwards only in what it leaves alone. -/
theorem State.runOperation_congr {s s' : State} (passThrough : Bool) (h : s.mem.inp = s'.mem.inp) :
    s'.runOperation passThrough =
      { s.runOperation passThrough with commands := s'.commands, delivered := s'.delivered } := by
  cases hbl : bitLength s.mem.inp.length with
  | none =>
    rw [State.runOperation_eq_of_none _ hbl, State.runOperation_eq_of_none _ (h ▸ hbl), h]
  | some bl =>
    rw [State.runOperation_eq_of_some _ hbl rfl, State.runOperation_eq_of_some _ (h ▸ hbl) rfl, h]

/-! The frame -/

/-- A whole operation touches neither the pending commands, nor the earlier deliveries, nor `IN`. -/
theorem State.runOperation_frame (s : State) (passThrough : Bool) :
    (s.runOperation passThrough).commands = s.commands ∧
    (s.runOperation passThrough).delivered = s.delivered ∧
    (s.runOperation passThrough).mem.inp = s.mem.inp := by
  cases h : bitLength s.mem.inp.length with
  | none => rw [State.runOperation_eq_of_none _ h]; exact ⟨rfl, rfl, rfl⟩
  | some bl => rw [State.runOperation_eq_of_some _ h rfl]; exact ⟨rfl, rfl, rfl⟩

/-- `N` counts the bytes written: `N = PADLEN` for PAD and `L + PADLEN` for PADMSG (R28). -/
theorem outputLength_eq_length (passThrough : Bool) (input : List Byte) (bl : BitVec 64) :
    outputLength passThrough input.length (padLength (fillerCount bl)) =
      ((if passThrough then input else []) ++ suffixOf bl).length := by
  cases passThrough <;> simp [outputLength, suffixOf_length]

/-- `N` is the length of `OUT` whenever it has a value, and without one `OUT` is empty. -/
theorem State.runOperation_outLen (s : State) (passThrough : Bool) :
    ((s.runOperation passThrough).outLen = none ∧ (s.runOperation passThrough).mem.out = []) ∨
    (s.runOperation passThrough).outLen = some (s.runOperation passThrough).mem.out.length := by
  cases h : bitLength s.mem.inp.length with
  | none => rw [State.runOperation_eq_of_none _ h]; exact .inl ⟨rfl, rfl⟩
  | some bl =>
    rw [State.runOperation_eq_of_some _ h rfl]
    exact .inr (congrArg some (outputLength_eq_length passThrough s.mem.inp bl))

theorem State.retire_idle (s : State) (q : Nat) : (s.retire q).Idle :=
  ⟨rfl, rfl, rfl, rfl, rfl, rfl, rfl, rfl, rfl, rfl⟩

/-- Idle states differ in nothing but the model's two lists. -/
theorem State.Idle.eq_of_lists {s t : State} (hs : s.Idle) (ht : t.Idle) :
    { t with commands := s.commands, delivered := s.delivered } = s := by
  cases s
  cases t
  simp_all [State.Idle]

end Sys2Proof.Machine

namespace Sys2Proof

open Machine

/-- Settles O23: both responses are `answer`, which on the same input takes the same path for both. -/
theorem padmsgIsTheInputThenPad : Obligations.PadmsgIsTheInputThenPad := by
  unfold Obligations.PadmsgIsTheInputThenPad
  intro s
  refine ⟨_, _, exec_eq .pad s, exec_eq .padmsg s, ?_⟩
  rw [State.runOperation_rsp .pad s, State.runOperation_rsp .padmsg s]
  cases h : bitLength s.mem.inp.length with
  | none => simp [answer_of_none _ h]
  | some bl => simp [answer_pad_of_some h, answer_padmsg_of_some h]

/-- Settles O25: the operation reads `IN` alone, and its response is `answer`. -/
theorem earlierOperationsLeaveNoTrace : Obligations.EarlierOperationsLeaveNoTrace := by
  unfold Obligations.EarlierOperationsLeaveNoTrace
  intro i s s' h
  refine ⟨_, exec_eq i s, ?_, fun r hr => ?_⟩
  · rw [exec_eq, State.runOperation_congr _ h]
  · rw [State.runOperation_rsp] at hr
    exact (Option.some.inj hr).symm

/-- Settles O26: the frame of an operation, `N` as the length of `OUT`, and for the step the two cases of
`step_cases`: nothing pending, or the operation's own command gone and its own response added. -/
theorem operationsChangeNothingButTheirResult : Obligations.OperationsChangeNothingButTheirResult := by
  unfold Obligations.OperationsChangeNothingButTheirResult
  refine ⟨fun i s => ?_, fun s t hidle hstep => ?_⟩
  · obtain ⟨hcmds, hdel, hinp⟩ := s.runOperation_frame (i == .padmsg)
    refine ⟨_, exec_eq i s, hcmds, hdel, fun a => by rw [hinp], ?_⟩
    rcases s.runOperation_outLen (i == .padmsg) with ⟨hnone, hout⟩ | hsome
    · simp [hnone, hout]
    · simp [hsome, List.getElem?_eq_some_iff]
  · rcases step_cases hstep with ⟨-, rfl⟩ | ⟨c, cs, hc, rfl⟩
    · exact ⟨rfl, List.prefix_rfl, List.suffix_rfl⟩
    · obtain ⟨hcmds, hdel, -⟩ := (s.accept c cs).runOperation_frame (decodeOp c.op == .padmsg)
      refine ⟨hidle.eq_of_lists (State.retire_idle _ _), ?_, ?_⟩
      · rw [State.retire_delivered, hdel]
        exact List.prefix_append _ _
      · rw [State.retire_commands, hcmds, hc]
        exact List.suffix_cons c cs

end Sys2Proof
end

section
/-! PAD's values (43_operations.md section 1): the lengths stage in terms of `L`, and the corner cases. -/

namespace Sys2Proof.Machine

/-- `TAM` in terms of `L` (R25, R90). -/
theorem totalAfterMarker_of_bitLength {L : Nat} {bl : BitVec 64} (h : bitLength L = some bl) :
    totalAfterMarker bl = L * 8 + 8 := by
  rw [totalAfterMarker_eq, (bitLength_toNat h).2]

/-- `FBITS` as the natural number that R91's formula gives. -/
theorem toNat_fillerBits (tam : Nat) :
    (fillerBits tam).toNat = ((448 - ((tam % 512 : Nat) : Int)) % 512).toNat := by
  rw [← fillerBits_toNat, Int.toNat_natCast]

/-- `FBYTES` for a length in contract (R93). -/
theorem fillerCount_toNat {L : Nat} {bl : BitVec 64} (h : bitLength L = some bl) :
    (fillerCount bl).toNat = (fillerBits (L * 8 + 8)).toNat / 8 := by
  rw [fillerCount, fillerBytes_toNat, totalAfterMarker_of_bitLength h]

/-- The suffix as R105 writes it. -/
theorem suffixOf_eq (bl : BitVec 64) :
    suffixOf bl = [0x80#8] ++ List.replicate (fillerCount bl).toNat 0x00#8 ++ be64 bl := rfl

end Sys2Proof.Machine

namespace Sys2Proof

open Machine

/-- Settles O17: the final state of an operation that completes with `F` for `FBITS`, the suffix's length
`FBYTES + 9`, whose corner cases are arithmetic in `L mod 64`; the longest suffix in
contract evaluates. -/
theorem padGivesTheSuffixOrOverflow : Obligations.PadGivesTheSuffixOrOverflow := by
  unfold Obligations.PadGivesTheSuffixOrOverflow
  rintro s L F sfx rfl hF hsfx
  refine ⟨fun hlt => ?_, fun hge => ?_⟩
  · have hbl := bitLength_of_lt hlt
    have htam := totalAfterMarker_of_bitLength hbl
    have hbits : (fillerBits (s.mem.inp.length * 8 + 8)).toNat = F :=
      (toNat_fillerBits _).trans hF.symm
    have hcount := (fillerCount_toNat hbl).trans (congrArg (· / 8) hbits)
    have hpad := (padLength_toNat _).trans (congrArg (· + 9) hcount)
    have hsuffix := hsfx.trans (hcount ▸ suffixOf_eq _).symm
    have hlen : sfx.length = F / 8 + 9 := hsuffix ▸ (suffixOf_length _).trans hpad
    refine ⟨?_, hlen, by omega, by omega, by omega, by omega, by omega, fun hmax => ⟨by omega, ?_⟩⟩
    · rw [exec_eq, State.runOperation_eq_of_some _ hbl hsuffix, outputLength, ← hpad, htam, ← hcount,
        ← hbits]
      simp
    · rw [hsuffix, hmax]
      decide
  · refine ⟨_, exec_eq .pad s, ?_⟩
    rw [State.runOperation_eq_of_none _ (bitLength_of_ge hge)]
    exact ⟨rfl, rfl, rfl⟩

end Sys2Proof
end

section
/-! The exception Overflow (60_exceptions.md section 1): exactly when it is raised, and that the length
field of an OK response is the true bit length. -/

namespace Sys2Proof.Machine

/-- The condition of R140 on the pure function: the two paths of `answer` are the two ranges of `L`. -/
theorem answer_eq_overflow_iff (i : Instr) (input : List Byte) :
    answer i input = .overflow ↔ 2 ^ 61 ≤ input.length := by
  rcases Nat.lt_or_ge input.length (2 ^ 61) with hlt | hge
  · have hbl := bitLength_of_lt hlt
    refine iff_of_false ?_ (Nat.not_le.mpr hlt)
    cases i with
    | pad => simp [answer_pad_of_some hbl]
    | padmsg => simp [answer_padmsg_of_some hbl]
  · exact iff_of_true (answer_of_none i (bitLength_of_ge hge)) hge

/-- An OK answer ends in the suffix of a bit length that exists (R84, R105). -/
theorem exists_suffixOf_of_answer_eq_ok {i : Instr} {input out : List Byte}
    (h : answer i input = .ok out) :
    ∃ bl pre, bitLength input.length = some bl ∧ out = pre ++ suffixOf bl := by
  cases hbl : bitLength input.length with
  | none => simp [answer_of_none i hbl] at h
  | some bl =>
    cases i with
    | pad =>
      rw [answer_pad_of_some hbl, Response.ok.injEq] at h
      exact ⟨bl, [], rfl, h.symm⟩
    | padmsg =>
      rw [answer_padmsg_of_some hbl, Response.ok.injEq] at h
      exact ⟨bl, input, rfl, h.symm⟩

theorem exists_eq_ok_of_ne_overflow {r : Response} (h : r ≠ .overflow) :
    ∃ out, r = .ok out := by
  cases r with
  | ok out => exact ⟨out, rfl⟩
  | overflow => exact absurd rfl h

/-- Every operation writes `OVF`, on either path (R24). -/
theorem State.runOperation_ovf (s : State) (passThrough : Bool) :
    (s.runOperation passThrough).ovf = some (overflowFlag s.mem.inp.length) := by
  rcases Nat.lt_or_ge s.mem.inp.length (2 ^ 61) with hlt | hge
  · rw [State.runOperation_eq_of_some _ (bitLength_of_lt hlt) rfl, overflowFlag_eq_false.mpr hlt]
  · rw [State.runOperation_eq_of_none _ (bitLength_of_ge hge), overflowFlag_eq_true.mpr hge]

/-- The length field read big-endian is `BL`: its bytes are the base-256 digits of a 64-bit number. -/
theorem beValue_be64 (bl : BitVec 64) : beValue (be64 bl) = bl.toNat := by
  have hlt := bl.isLt
  simp only [be64_eq, beValue, List.foldl_cons, List.foldl_nil, lengthByte_toNat]
  omega

/-- Whatever precedes a suffix, the last 8 bytes are its length field. -/
theorem drop_length_sub_eight_append_suffixOf (pre : List Byte) (bl : BitVec 64) :
    (pre ++ suffixOf bl).drop ((pre ++ suffixOf bl).length - 8) = be64 bl := by
  rw [suffixOf, ← List.append_assoc]
  apply List.drop_left'
  rw [List.length_append (bs := be64 bl), be64_length, Nat.add_sub_cancel]

end Sys2Proof.Machine

namespace Sys2Proof

open Machine

/-- Settles O20: the response is `answer`, which is OVERFLOW exactly from `2^61` on, and `OVF` is the flag
of that same bound; the product with 8 and both boundary values are arithmetic. -/
theorem overflowExactlyFromTwoToTheSixtyOne : Obligations.OverflowExactlyFromTwoToTheSixtyOne := by
  unfold Obligations.OverflowExactlyFromTwoToTheSixtyOne
  intro i s
  have hover := answer_eq_overflow_iff i s.mem.inp
  refine ⟨_, _, exec_eq i s, State.runOperation_rsp i s, hover, ?_, ?_,
    exists_eq_ok_of_ne_overflow, fun hlast => ?_, fun hfirst => ?_⟩
  · rw [hover]
    omega
  · rw [hover, State.runOperation_ovf, Option.some.injEq, overflowFlag_eq_true]
  · rw [Ne, hover]
    omega
  · rw [hover]
    omega

/-- Settles O22: an OK response ends in the length field of a `BL` that exists, which reads back as `BL`;
and `BL` is the exact product, in 64 bits. -/
theorem okNeverCarriesATruncatedLength : Obligations.OkNeverCarriesATruncatedLength := by
  unfold Obligations.OkNeverCarriesATruncatedLength
  intro i s
  refine ⟨_, exec_eq i s, fun out hrsp => ?_⟩
  rw [State.runOperation_rsp, Option.some.injEq] at hrsp
  obtain ⟨bl, pre, hbl, rfl⟩ := exists_suffixOf_of_answer_eq_ok hrsp
  obtain ⟨-, hexact⟩ := bitLength_toNat hbl
  rw [drop_length_sub_eight_append_suffixOf, beValue_be64]
  exact ⟨hexact, bl.isLt⟩

end Sys2Proof
end

section
/-! One step and whole runs (10_state.md section 1, 43_operations.md section 2): the state a step leaves
behind, written out, and from it what every invariant and every run of pending commands comes to. -/

namespace Sys2Proof

/-- What a command's requester is handed: the pure function of the command's own `OP` and `IN`, under the
requester's number (log 2). -/
def Command.delivery (c : Command) : Delivery :=
  ⟨c.requester, Machine.answer (decodeOp c.op) c.input⟩

end Sys2Proof

namespace Sys2Proof.Machine

/-- The idle CORE (R20, log 4) with given lists at its ports: all that a step leaves behind. -/
def State.idleWith (commands : List Command) (delivered : List Delivery) : State :=
  { State.reset with commands := commands, delivered := delivered }

theorem State.idleWith_idle (cs : List Command) (ds : List Delivery) : (State.idleWith cs ds).Idle :=
  State.retire_idle (State.idleWith cs ds) 0

@[simp] theorem State.idleWith_delivered (cs : List Command) (ds : List Delivery) :
    (State.idleWith cs ds).delivered = ds := rfl

/-- An idle state is its two lists. -/
theorem State.Idle.idleWith_eq {s : State} (h : s.Idle) :
    State.idleWith s.commands s.delivered = s :=
  h.eq_of_lists (State.idleWith_idle [] [])

/-- Taking a command, running it and retiring it leave nothing but the command's delivery. -/
theorem State.retire_runOperation_accept (s : State) (c : Command) (cs : List Command) :
    ((s.accept c cs).runOperation (decodeOp c.op == .padmsg)).retire c.requester =
      State.idleWith cs (s.delivered ++ [c.delivery]) := by
  obtain ⟨hcmds, hdel, -⟩ := (s.accept c cs).runOperation_frame (decodeOp c.op == .padmsg)
  rw [← (State.retire_idle _ c.requester).idleWith_eq, State.retire_commands, State.retire_delivered,
    hcmds, hdel, State.runOperation_rsp]
  rfl

theorem step_of_nil {s : State} (h : s.commands = []) : step s = .next s := by
  simp only [step, fetch_of_nil h]

theorem step_of_cons {s : State} {c : Command} {cs : List Command} (h : s.commands = c :: cs) :
    step s = .next (State.idleWith cs (s.delivered ++ [c.delivery])) := by
  simp only [step, fetch_of_cons h, exec_eq, State.retire_runOperation_accept]

/-- The inversion of a step that answers a next state, with that state written out. -/
theorem step_eq_next_cases {s t : State} (h : step s = .next t) :
    (s.commands = [] ∧ t = s) ∨
    ∃ c cs, s.commands = c :: cs ∧ t = State.idleWith cs (s.delivered ++ [c.delivery]) := by
  rcases step_cases h with hnil | ⟨c, cs, hc, ht⟩
  · exact .inl hnil
  · exact .inr ⟨c, cs, hc, ht.trans (s.retire_runOperation_accept c cs)⟩

/-- All or nothing (R109, R110): the result of an operation is whole. -/
theorem responseWhole_answer (i : Instr) (input : List Byte) : ResponseWhole (answer i input) := by
  cases h : bitLength input.length with
  | none => rw [answer_of_none i h]; exact trivial
  | some bl =>
    have hsfx := suffix_of_some h
    cases i with
    | pad => rw [answer_pad_of_some h]; exact ⟨input, suffixOf bl, hsfx, .inl rfl⟩
    | padmsg => rw [answer_padmsg_of_some h]; exact ⟨input, suffixOf bl, hsfx, .inr rfl⟩

end Sys2Proof.Machine

namespace Sys2Proof

open Machine

/-- Settles O13: a step that does anything ends idle, and adds one delivery, whose response is `answer`
and so is whole. -/
theorem stepsKeepTheMachineSafe : Obligations.StepsKeepTheMachineSafe := by
  unfold Obligations.StepsKeepTheMachineSafe
  rintro s t ⟨hidle, hwhole⟩ hstep
  rcases step_eq_next_cases hstep with ⟨-, rfl⟩ | ⟨c, cs, -, rfl⟩
  · exact ⟨hidle, hwhole⟩
  · refine ⟨State.idleWith_idle _ _, fun d hd => ?_⟩
    rcases List.mem_append.mp hd with hold | hnew
    · exact hwhole d hold
    · rw [List.mem_singleton.mp hnew]
      exact responseWhole_answer _ _

end Sys2Proof
end

section
/-! The other statements about steps and runs: a run is its steps, each with the state it leaves written
out, so its deliveries are those of the pending commands in order. -/

namespace Sys2Proof.Machine

/-- The first step of a run, once it is known. -/
theorem run_succ_of_step {s t : State} (h : step s = .next t) (k : Nat) :
    Host.Core.run core (k + 1) s = Host.Core.run core k t := by
  have hstep : core.step s = .next t := h
  simp only [Host.Core.run, hstep]

/-- Serving every pending command from an idle CORE. -/
theorem run_idleWith (cs : List Command) (ds : List Delivery) :
    Host.Core.run core cs.length (State.idleWith cs ds) =
      .next (State.idleWith [] (ds ++ cs.map Command.delivery)) := by
  induction cs generalizing ds with
  | nil => simp [Host.Core.run]
  | cons c cs ih =>
    rw [List.length_cons, run_succ_of_step (step_of_cons rfl), State.idleWith_delivered, ih]
    simp

/-- Serving every pending command from any state: the first step already leaves CORE idle. -/
theorem run_pending (s : State) : ∃ t : State, Host.Core.run core s.commands.length s = .next t ∧
    t.commands = [] ∧ t.delivered = s.delivered ++ s.commands.map Command.delivery ∧
    (s.commands ≠ [] → t.Idle) := by
  cases hc : s.commands with
  | nil => exact ⟨s, rfl, hc, by simp, fun h => absurd rfl h⟩
  | cons c cs =>
    refine ⟨_, (run_succ_of_step (step_of_cons hc) cs.length).trans (run_idleWith cs _), rfl, ?_,
      fun _ => State.idleWith_idle _ _⟩
    simp

/-- A requester's share of the deliveries of some commands is made of its own commands alone. -/
theorem State.deliveredTo_of_append {s t : State}
    (h : t.delivered = s.delivered ++ s.commands.map Command.delivery) (r : Nat) :
    t.deliveredTo r = s.deliveredTo r ++
      (s.pendingOf r).map fun p => answer (decodeOp p.1) p.2 := by
  simp only [State.deliveredTo, State.pendingOf, h, List.filter_append, List.map_append,
    List.filter_map, List.map_map]
  rfl

end Sys2Proof.Machine

namespace Sys2Proof

open Machine

/-- Settles O7: taking the command is `accept`, running it `runOperation`, and `retire` ends the step. -/
theorem stepRunsTheDecodedCommand : Obligations.StepRunsTheDecodedCommand := by
  unfold Obligations.StepRunsTheDecodedCommand
  intro s c cs hc
  refine ⟨_, exec_eq (decodeOp c.op) (s.accept c cs), _, step_of_cons hc, State.idleWith_idle _ _, ?_⟩
  obtain ⟨hcmds, hdel, -⟩ := (s.accept c cs).runOperation_frame (decodeOp c.op == .padmsg)
  refine ⟨hcmds.symm, fun r hr => ?_⟩
  rw [State.runOperation_rsp, Option.some.injEq] at hr
  rw [hdel, ← hr]
  rfl

/-- Settles O8: with nothing to fetch the step answers its own state. -/
theorem stepWithoutCommandChangesNothing : Obligations.StepWithoutCommandChangesNothing := by
  unfold Obligations.StepWithoutCommandChangesNothing
  intro s h
  exact step_of_nil h

/-- Settles O9: the state after the step is the idle one with the two lists moved on, and from an idle
CORE that is the state before it with the two lists moved on. -/
theorem stepAnswersTheOldestCommandAndNothingElse :
    Obligations.StepAnswersTheOldestCommandAndNothingElse := by
  unfold Obligations.StepAnswersTheOldestCommandAndNothingElse
  refine ⟨fun s c cs hc => ⟨_, step_of_cons hc, State.idleWith_idle _ _, rfl, rfl⟩,
    fun s c cs hidle hc => ?_⟩
  have hmoved : { s with commands := cs, delivered := s.delivered ++ [c.delivery] }.Idle := hidle
  rw [step_of_cons hc]
  exact congrArg Host.Outcome.next hmoved.idleWith_eq

/-- Settles O10: `run_pending`. -/
theorem runAnswersEveryPendingCommand : Obligations.RunAnswersEveryPendingCommand := by
  unfold Obligations.RunAnswersEveryPendingCommand
  exact run_pending

/-- Settles O11: after the run a requester has its earlier responses and the results of its own pending
commands, and both are the same in the two states. -/
theorem otherRequestersAreInvisible : Obligations.OtherRequestersAreInvisible := by
  unfold Obligations.OtherRequestersAreInvisible
  intro r s s' t t' hpending hdelivered hrun hrun'
  obtain ⟨_, hu, -, hdel, -⟩ := run_pending s
  obtain ⟨_, hu', -, hdel', -⟩ := run_pending s'
  cases hu.symm.trans hrun
  cases hu'.symm.trans hrun'
  rw [State.deliveredTo_of_append hdel, State.deliveredTo_of_append hdel', hpending, hdelivered]

/-- Settles O12: a step answers a next state in both of its cases. -/
theorem everyStepAnswersANextState : Obligations.EveryStepAnswersANextState := by
  unfold Obligations.EveryStepAnswersANextState
  intro s
  cases hc : s.commands with
  | nil => exact ⟨_, step_of_nil hc⟩
  | cons c cs => exact ⟨_, step_of_cons hc⟩

/-- Settles O14: reset is the idle CORE with both lists empty. -/
theorem resetIsSafeAndIdle : Obligations.ResetIsSafeAndIdle := by
  unfold Obligations.ResetIsSafeAndIdle
  exact ⟨⟨State.idleWith_idle [] [], fun _ hd => nomatch hd⟩, rfl, rfl⟩

/-- Settles O15: every operation leaves memory in form, and a step leaves it as it was or empty. -/
theorem memoryFormHoldsAfterEveryOperation : Obligations.MemoryFormHoldsAfterEveryOperation := by
  unfold Obligations.MemoryFormHoldsAfterEveryOperation
  refine ⟨fun i s => ⟨_, exec_eq i s, State.runOperation_mem_wf _ _⟩, fun s t hwf hstep => ?_⟩
  rcases step_eq_next_cases hstep with ⟨-, rfl⟩ | ⟨c, cs, -, rfl⟩
  · exact hwf
  · exact Memory.empty_wf

/-- Settles O16: the last delivery of either step is the command's own, whatever came before. -/
theorem firstOperationNeedsNoWarmUp : Obligations.FirstOperationNeedsNoWarmUp := by
  unfold Obligations.FirstOperationNeedsNoWarmUp
  intro s c cs hc
  have hreset : step (State.idleWith [c] []) = .next (State.idleWith [] [c.delivery]) :=
    step_of_cons rfl
  exact ⟨_, _, hreset, step_of_cons hc, by simp, rfl⟩

/-- Settles O27: both runs end idle with the same pending commands; the faulting command's delivery is
OVERFLOW, and the second command's is its own in either run. -/
theorem overflowLeavesNothingBehind : Obligations.OverflowLeavesNothingBehind := by
  unfold Obligations.OverflowLeavesNothingBehind
  intro s c c' cs hc hlong
  have hover : c.delivery = ⟨c.requester, .overflow⟩ :=
    congrArg (Delivery.mk c.requester) (answer_of_none (decodeOp c.op) (bitLength_of_ge hlong))
  have hrun : Host.Core.run core 2 s =
      .next (State.idleWith cs (s.delivered ++ [c.delivery] ++ [c'.delivery])) := by
    rw [run_succ_of_step (step_of_cons hc), run_succ_of_step (step_of_cons rfl)]
    rfl
  refine ⟨_, _, hrun, step_of_cons rfl, rfl, rfl, State.idleWith_idle _ _, State.idleWith_idle _ _,
    c'.delivery, rfl, ?_⟩
  rw [State.idleWith_delivered, hover, List.append_assoc]
  rfl

end Sys2Proof
end

section
/-! Encoding (30_encoding.md): command words, the two parts of a response, names and operand literals. -/

namespace Sys2Proof

/-- A carrier byte has a bit above `OP` exactly when it is 2 or more (log 7). -/
theorem extractLsb'_above_op_eq_zero_iff (b : Byte) : b.extractLsb' 1 7 = 0#7 ↔ b.toNat < 2 := by
  have hb := b.isLt
  rw [BitVec.toNat_eq, BitVec.extractLsb'_toNat, Nat.shiftRight_eq_div_pow, BitVec.toNat_ofNat]
  omega

theorem decode_cons_of_lt {b : Byte} (h : b.toNat < 2) (rest : List Byte) :
    decode (b :: rest) = .ok (decodeOp (b.setWidth 1), rest) := by
  rw [decode, if_pos ((extractLsb'_above_op_eq_zero_iff b).mpr h), BitVec.setWidth_eq_extractLsb'
    (by decide)]

theorem decode_cons_of_ge {b : Byte} (h : 2 ≤ b.toNat) (rest : List Byte) :
    decode (b :: rest) = .error .bitsBeyondOp := by
  rw [decode, if_neg (mt (extractLsb'_above_op_eq_zero_iff b).mp (Nat.not_lt.mpr h))]

theorem decodeOp_encodeOp (i : Instr) : decodeOp (encodeOp i) = i := by
  cases i <;> rfl

theorem encodeOp_decodeOp (w : OpWord) : encodeOp (decodeOp w) = w := by
  rcases BitVec.eq_zero_or_eq_one w with rfl | rfl <;> rfl

theorem decode_encode_append (i : Instr) (rest : List Byte) :
    decode (encode i ++ rest) = .ok (i, rest) := by
  cases i <;> rfl

/-- The carrier of a command word loses nothing of a byte that decodes. -/
theorem encode_decodeOp_of_lt {b : Byte} (h : b.toNat < 2) : encode (decodeOp (b.setWidth 1)) = [b] := by
  rw [encode, encodeOp_decodeOp, List.singleton_inj]
  apply BitVec.eq_of_toNat_eq
  rw [BitVec.toNat_setWidth, BitVec.toNat_setWidth]
  omega

theorem eq_encode_append_of_decode_eq_ok {bytes : List Byte} {i : Instr} {rest : List Byte}
    (h : decode bytes = .ok (i, rest)) : bytes = encode i ++ rest := by
  cases bytes with
  | nil => cases h
  | cons b tail =>
    rcases Nat.lt_or_ge b.toNat 2 with hlt | hge
    · rw [decode_cons_of_lt hlt] at h
      cases h
      rw [encode_decodeOp_of_lt hlt]
      rfl
    · rw [decode_cons_of_ge hge] at h
      cases h

/-- Decoding two parts is the inverse of encoding a response, as a relation. -/
theorem decodeResponse_eq_some_iff (raw : RawResponse) (r : Response) :
    decodeResponse raw = some r ↔ encodeResponse r = raw := by
  obtain ⟨status, out⟩ := raw
  simp only [encodeResponse, RawResponse.mk.injEq]
  rcases BitVec.eq_zero_or_eq_one status with rfl | rfl <;> cases out <;> cases r <;>
    simp [decodeResponse, Response.status, Response.out, eq_comm]

/-- The check on two parts accepts what decodes. -/
theorem RawResponse.wf_eq_isSome (raw : RawResponse) : raw.wf = (decodeResponse raw).isSome := by
  obtain ⟨status, out⟩ := raw
  rcases BitVec.eq_zero_or_eq_one status with rfl | rfl <;> cases out <;> rfl

end Sys2Proof

namespace Sys2Proof.Machine

theorem denotes_hex (bytes x : List Byte) : denotes (.hex bytes) x = true ↔ x = bytes := by
  rw [denotes, beq_iff_eq]

theorem denotes_copies (b : Byte) (n : Nat) (x : List Byte) :
    denotes (.copies b n) x = true ↔ x.length = n ∧ ∀ y ∈ x, y = b := by
  rw [denotes, beq_iff_eq, List.eq_replicate_iff]

theorem denotes_anyOfLength (n : Nat) (x : List Byte) :
    denotes (.anyOfLength n) x = true ↔ x.length = n := by
  rw [denotes, beq_iff_eq]

theorem charByte_eq_some_iff (c : Char) (b : Byte) :
    charByte c = some b ↔ c.toNat < 128 ∧ b = BitVec.ofNat 8 c.toNat := by
  rw [charByte, Option.ite_none_right_eq_some, Option.some.injEq, eq_comm (a := b)]

theorem map_charByte_eq_iff (chars : List Char) (x : List Byte) :
    chars.map charByte = x.map some ↔
      (∀ c ∈ chars, c.toNat < 128) ∧ x = chars.map fun c => BitVec.ofNat 8 c.toNat := by
  induction chars generalizing x with
  | nil => cases x <;> simp
  | cons c chars ih =>
    cases x with
    | nil => simp
    | cons b x =>
      simp only [List.map_cons, List.cons.injEq, charByte_eq_some_iff, ih, List.forall_mem_cons]
      tauto

theorem denotes_str (chars : List Char) (x : List Byte) : denotes (.str chars) x = true ↔
    (∀ c ∈ chars, c.toNat < 128) ∧ x = chars.map fun c => BitVec.ofNat 8 c.toNat := by
  rw [denotes, beq_iff_eq, map_charByte_eq_iff]

/-- The cut that `denotes` looks for is any cut at all. -/
theorem denotes_cat (l m : Literal) (x : List Byte) : denotes (.cat l m) x = true ↔
    ∃ y z, x = y ++ z ∧ denotes l y = true ∧ denotes m z = true := by
  simp only [denotes, List.any_eq_true, List.mem_range, Bool.and_eq_true]
  constructor
  · rintro ⟨k, -, hl, hm⟩
    exact ⟨x.take k, x.drop k, (List.take_append_drop k x).symm, hl, hm⟩
  · rintro ⟨y, z, rfl, hl, hm⟩
    refine ⟨y.length, by simp, ?_⟩
    rw [List.take_left, List.drop_left]
    exact ⟨hl, hm⟩

end Sys2Proof.Machine

namespace Sys2Proof

open Machine

/-- Settles O1: each of the words evaluates. -/
theorem commandWordsDecodeAsWritten : Obligations.CommandWordsDecodeAsWritten := by
  unfold Obligations.CommandWordsDecodeAsWritten
  exact ⟨rfl, rfl, fun _ => rfl, fun _ => rfl, rfl, rfl⟩

/-- Settles O2: the rows on both words, and the carrier byte on either side of 2. -/
theorem everyCommandWordIsExactlyOneOperation : Obligations.EveryCommandWordIsExactlyOneOperation := by
  unfold Obligations.EveryCommandWordIsExactlyOneOperation
  exact ⟨by decide, fun _ rest h => decode_cons_of_lt h rest, fun _ rest h => decode_cons_of_ge h rest,
    rfl⟩

/-- Settles O3: the two round trips of the word and of its carrier byte. -/
theorem decodeAndEncodeAgree : Obligations.DecodeAndEncodeAgree := by
  unfold Obligations.DecodeAndEncodeAgree
  exact ⟨fun i _ => decodeOp_encodeOp i, encodeOp_decodeOp, fun i rest _ => decode_encode_append i rest,
    fun _ _ _ => eq_encode_append_of_decode_eq_ok⟩

/-- Settles O4: decoding is the inverse relation of encoding, and the check accepts what decodes. -/
theorem responsePartsRoundTrip : Obligations.ResponsePartsRoundTrip := by
  unfold Obligations.ResponsePartsRoundTrip
  refine ⟨fun r => (decodeResponse_eq_some_iff _ r).mpr rfl, fun raw => ?_,
    fun raw r => (decodeResponse_eq_some_iff raw r).mp, fun _ => rfl, rfl⟩
  rw [RawResponse.wf_eq_isSome, Option.isSome_iff_exists]
  exact exists_congr (decodeResponse_eq_some_iff raw)

/-- Settles O5: each name is compared with the four that `instrOfName` knows. -/
theorem namesOfTheNotation : Obligations.NamesOfTheNotation := by
  unfold Obligations.NamesOfTheNotation
  refine ⟨fun i => ?_, ?_⟩
  · cases i <;> simp [mnemonic, instrOfName]
  · simp [instrOfName]

/-- Settles O6: one lemma per literal. -/
theorem operandLiteralsDenote : Obligations.OperandLiteralsDenote := by
  unfold Obligations.OperandLiteralsDenote
  exact ⟨denotes_hex, denotes_str, by decide, denotes_copies, denotes_anyOfLength, denotes_cat⟩

end Sys2Proof
end

section
/-! Unit BLE's product, flag and bytes in terms of `L` (40_bit_length_encoder.md; 10_state.md section 2). -/

namespace Sys2Proof.Machine

/-- `BL` is the 61 low bits of `L` followed by three zero bits. -/
theorem eq_append_zero_of_bitLength {L : Nat} {bl : BitVec 64} (h : bitLength L = some bl) :
    bl = BitVec.ofNat 61 L ++ 0#3 := by
  obtain ⟨hlt, hbl⟩ := bitLength_toNat h
  apply BitVec.eq_of_toNat_eq
  rw [hbl, BitVec.toNat_append, BitVec.toNat_ofNat, BitVec.toNat_zero, Nat.or_zero,
    Nat.shiftLeft_eq, Nat.mod_eq_of_lt hlt]

/-- Shifting `BL` right by 8 or more places is shifting `L` by three less. -/
theorem lengthByte_of_lt_seven {L k : Nat} {bl : BitVec 64} (h : bitLength L = some bl) (hk : k < 7) :
    lengthByte bl k = BitVec.ofNat 8 (L >>> (8 * (7 - k) - 3)) := by
  have hpow : 2 ^ (8 * (7 - k)) = 2 ^ (8 * (7 - k) - 3) * 8 := by
    rw [← Nat.pow_add _ _ 3]
    congr 1
    omega
  apply BitVec.eq_of_toNat_eq
  rw [lengthByte_toNat, (bitLength_toNat h).2, hpow, Nat.mul_div_mul_right _ _ (by decide),
    BitVec.toNat_ofNat, Nat.shiftRight_eq_div_pow]

/-- The last byte of the length field has the three zero bits of the product. -/
theorem lengthByte_seven {L : Nat} {bl : BitVec 64} (h : bitLength L = some bl) :
    lengthByte bl 7 = BitVec.ofNat 8 (L % 32 * 8) := by
  apply BitVec.eq_of_toNat_eq
  rw [lengthByte_toNat, (bitLength_toNat h).2, BitVec.toNat_ofNat]
  omega

end Sys2Proof.Machine

namespace Sys2Proof

open Machine

/-- Settles O28: the two ranges of `L`, and below `2^61` the two parts of the product's bits. -/
theorem bitLengthIsExactOrAbsent : Obligations.BitLengthIsExactOrAbsent := by
  unfold Obligations.BitLengthIsExactOrAbsent
  refine fun L => ⟨fun hge => ⟨overflowFlag_eq_true.mpr hge, bitLength_of_ge hge⟩,
    fun hlt => ⟨overflowFlag_eq_false.mpr hlt, _, bitLength_of_lt hlt, ?_⟩, by omega⟩
  have hbl := bitLength_of_lt hlt
  have happend := eq_append_zero_of_bitLength hbl
  refine ⟨(bitLength_toNat hbl).2, happend, ?_, ?_⟩
  · rw [happend, BitVec.extractLsb'_append_eq_right]
  · rw [happend, BitVec.extractLsb'_append_eq_left]

/-- Settles O29: the top three bits are the quotient by `2^61`. -/
theorem overflowFlagIsTheTopThreeBits : Obligations.OverflowFlagIsTheTopThreeBits := by
  unfold Obligations.OverflowFlagIsTheTopThreeBits
  intro l
  have hl := l.isLt
  rw [overflowFlag_eq_true, Ne, BitVec.toNat_eq, BitVec.extractLsb'_toNat, Nat.shiftRight_eq_div_pow,
    BitVec.toNat_zero]
  omega

/-- Settles O31: reading back inverts the field, hence it tells lengths apart; each byte is `lengthByte`. -/
theorem lengthFieldReadsBack : Obligations.LengthFieldReadsBack := by
  unfold Obligations.LengthFieldReadsBack
  refine ⟨beValue_be64, fun v w h => ?_, fun L bl h => ?_⟩
  · apply BitVec.eq_of_toNat_eq
    rw [← beValue_be64 v, h, beValue_be64]
  · obtain ⟨-, hbl⟩ := bitLength_toNat h
    refine ⟨?_, by omega, fun k hk => ?_, ?_⟩
    · rw [beValue_be64, hbl, Nat.mul_comm]
    · rw [be64_getElem? bl (by omega), lengthByte_of_lt_seven h hk]
    · rw [be64_getElem? bl (by decide), lengthByte_seven h]

end Sys2Proof
end

section
/-! Unit MPL in terms of `L` (41_padding_length_computer.md): the closed forms, and the other ways to
compute the same filler. -/

namespace Sys2Proof.Machine

/-- R91 without a negative difference. -/
theorem fillerBits_toNat_eq (tam : Nat) : (fillerBits tam).toNat = (448 + 512 - tam % 512) % 512 := by
  have h := fillerBits_toNat_int tam
  omega

theorem fillerBits_congr {m n : Nat} (h : m % 512 = n % 512) : fillerBits m = fillerBits n :=
  (fillerBits_of_mod h).trans (fillerBits_of_mod rfl).symm

/-- Any wrapping subtraction is right modulo 512 when the word's modulus is a multiple of 512. -/
theorem wrappingSub_mod_512 {W : Nat} (hW : 9 ≤ W) (r : Nat) (hr : r < 512) :
    (BitVec.ofNat W 448 - BitVec.ofNat W r).toNat % 512 = (448 + 512 - r) % 512 := by
  obtain ⟨d, rfl⟩ := Nat.exists_eq_add_of_le hW
  have hpow : 2 ^ (9 + d) = 512 * 2 ^ d := Nat.pow_add 2 9 d
  have hpos : 0 < 2 ^ d := Nat.two_pow_pos d
  rw [BitVec.toNat_sub, BitVec.toNat_ofNat, BitVec.toNat_ofNat, hpow,
    Nat.mod_mul_right_mod, Nat.mod_eq_of_lt (a := r) (by omega), Nat.mod_eq_of_lt (a := 448) (by omega)]
  omega

/-- `FBITS` in terms of `L mod 64`. -/
theorem fillerBits_of_bitLength {L : Nat} {bl : BitVec 64} (h : bitLength L = some bl) :
    (fillerBits (totalAfterMarker bl)).toNat = 8 * ((119 - L % 64) % 64) := by
  rw [totalAfterMarker_of_bitLength h, fillerBits_toNat_eq]
  omega

/-- `FBYTES` in terms of `L mod 64`. -/
theorem fillerCount_of_bitLength {L : Nat} {bl : BitVec 64} (h : bitLength L = some bl) :
    (fillerCount bl).toNat = (119 - L % 64) % 64 := by
  rw [fillerCount, fillerBytes_toNat, fillerBits_of_bitLength h, Nat.mul_div_cancel_left _ (by decide)]

/-- The suffix length in terms of `L mod 64`. -/
theorem suffixOf_length_of_bitLength {L : Nat} {bl : BitVec 64} (h : bitLength L = some bl) :
    (suffixOf bl).length = (119 - L % 64) % 64 + 9 := by
  rw [suffixOf_length, padLength_toNat, fillerCount_of_bitLength h]

/-- The rows of the table are the closed forms at `L = r`. -/
theorem paddingTable_row {r : Nat} (hr : r < 64) : paddingTable[r]? = some
    [(8 * r + 8) % 512, 8 * ((119 - r) % 64), (119 - r) % 64, (119 - r) % 64 + 9,
      r + (119 - r) % 64 + 9] := by
  revert r
  decide

end Sys2Proof.Machine

namespace Sys2Proof

open Machine

/-- Settles O32: `TAM` is `8 * (L + 1)`, with `L` below `2^61`. -/
theorem totalAfterMarkerDoesNotWrap : Obligations.TotalAfterMarkerDoesNotWrap := by
  unfold Obligations.TotalAfterMarkerDoesNotWrap
  intro L bl h
  obtain ⟨hlt, -⟩ := bitLength_toNat h
  have htam := totalAfterMarker_of_bitLength h
  exact ⟨totalAfterMarker_eq bl, by omega, by omega, by omega, by omega⟩

/-- Settles O34: each way is the form `448 + 512 - TAM mod 512` modulo 512, and where the difference is
negative the signed remainder is that negative number. -/
theorem subtractionRealisationsAgree : Obligations.SubtractionRealisationsAgree := by
  unfold Obligations.SubtractionRealisationsAgree
  intro tam
  have hform := fillerBits_toNat_eq tam
  have hr : tam % 512 < 512 := Nat.mod_lt _ (by decide)
  refine ⟨hform, ?_, ?_, fun W hW => ?_, fun hneg => ?_⟩
  · split <;> omega
  · apply BitVec.eq_of_toNat_eq
    rw [BitVec.toNat_sub, BitVec.toNat_ofNat, BitVec.toNat_ofNat, hform]
    omega
  · rw [wrappingSub_mod_512 (Nat.le_of_lt hW) _ hr, hform]
  · have hflip : (448 - ((tam % 512 : Nat) : Int)) = -((tam % 512 - 448 : Nat) : Int) := by omega
    rw [hflip, Int.neg_tmod, Int.tmod_eq_of_lt (by omega) (by omega)]
    omega

/-- Settles O36: `FBITS` is 8 times a residue, and the length `(55 - m) mod 64` has residue `m`. -/
theorem fillerBitsTakesExactlyTheMultiplesOf8 : Obligations.FillerBitsTakesExactlyTheMultiplesOf8 := by
  unfold Obligations.FillerBitsTakesExactlyTheMultiplesOf8
  refine ⟨fun L bl h => ⟨_, Nat.mod_lt _ (by decide), fillerBits_of_bitLength h⟩, fun m hm => ?_⟩
  have hlen : (119 - m) % 64 < 64 := Nat.mod_lt _ (by decide)
  have hbl := bitLength_of_lt (hlen.trans (by decide))
  refine ⟨_, _, hlen, hbl, ?_⟩
  rw [fillerBits_of_bitLength hbl]
  omega

/-- Settles O37: the closed form in `L mod 64`, read in each range and in 6 bits. -/
theorem fillerBytesClosedForms : Obligations.FillerBytesClosedForms := by
  unfold Obligations.FillerBytesClosedForms
  intro L bl h
  have hcount := fillerCount_of_bitLength h
  refine ⟨by omega, by omega, by omega, ?_, fun L' bl' h' hmod => ?_⟩
  · apply BitVec.eq_of_toNat_eq
    rw [BitVec.toNat_not, BitVec.toNat_ofNat, hcount]
    omega
  · apply BitVec.eq_of_toNat_eq
    rw [hcount, fillerCount_of_bitLength h', hmod]

/-- Settles O38: the suffix has `PADLEN` bytes, and the rest is arithmetic in `L mod 64`. -/
theorem suffixLengthBounds : Obligations.SuffixLengthBounds := by
  unfold Obligations.SuffixLengthBounds
  intro L bl h
  have hlen := suffixOf_length_of_bitLength h
  have hcount := fillerCount_of_bitLength h
  exact ⟨_, suffix_of_some h, (suffixOf_length bl).symm, by omega, by omega, by omega, by omega, by omega,
    by omega, by omega⟩

/-- Settles O40: 512 divides `2^64` and `2^9`, so both wrapped sums keep the residue of `TAM`. -/
theorem fillerIgnoresAWrapOfTheTotal : Obligations.FillerIgnoresAWrapOfTheTotal := by
  unfold Obligations.FillerIgnoresAWrapOfTheTotal
  intro bl
  refine ⟨fillerBits_congr ?_, fillerBits_congr ?_⟩
  · rw [totalAfterMarker_eq, BitVec.toNat_add, BitVec.toNat_ofNat]
    omega
  · rw [totalAfterMarker_eq, BitVec.toNat_add, BitVec.toNat_setWidth, BitVec.toNat_ofNat]
    omega

/-- Settles O41: the congruence is R91's; a smaller count would be less by 512, and so below 0. -/
theorem fillerIsTheStandardsLeastZeroCount : Obligations.FillerIsTheStandardsLeastZeroCount := by
  unfold Obligations.FillerIsTheStandardsLeastZeroCount
  intro L bl h k
  obtain ⟨-, hbl⟩ := bitLength_toNat h
  have hk : k = 8 * ((119 - L % 64) % 64) + 7 := congrArg (· + 7) (fillerBits_of_bitLength h)
  exact ⟨by omega, fun j hj => by omega⟩

/-- Settles O42: the row of `L mod 64` holds the closed forms, which are the unit's values at `L`. -/
theorem paddingTableHoldsForEveryLength : Obligations.PaddingTableHoldsForEveryLength := by
  unfold Obligations.PaddingTableHoldsForEveryLength
  intro L bl h
  have hmod : totalAfterMarker bl % 512 = (8 * (L % 64) + 8) % 512 := by
    rw [totalAfterMarker_of_bitLength h]
    omega
  refine ⟨L % 64 + (119 - L % 64) % 64 + 9, ?_, ?_⟩
  · rw [paddingTable_row (Nat.mod_lt _ (by decide)), hmod, fillerBits_of_bitLength h, padLength_toNat,
      fillerCount_of_bitLength h]
  · rw [outputLength, if_pos rfl, padLength_toNat, fillerCount_of_bitLength h]
    omega

end Sys2Proof
end

section
/-! Unit BSF byte by byte (42_byte_sequence_formatter.md): the suffix byte at every offset, the phases as
ranges of `IDX`, and the byte-serial formatter. -/

namespace Sys2Proof.Machine

/-! The suffix byte in each range of offsets (R106) -/

theorem suffixByteOf_zero (bl : BitVec 64) : suffixByteOf bl 0 = some 0x80#8 := rfl

theorem suffixByteOf_filler {bl : BitVec 64} {j : Nat} (hpos : 1 ≤ j) (hj : j ≤ (fillerCount bl).toNat) :
    suffixByteOf bl j = some 0x00#8 := by
  rw [suffixByteOf, if_neg (by omega), if_pos hj]
  rfl

theorem suffixByteOf_lengthField {bl : BitVec 64} {j : Nat} (hj : (fillerCount bl).toNat + 1 ≤ j) :
    suffixByteOf bl j = (be64 bl)[j - (fillerCount bl).toNat - 1]? := by
  rw [suffixByteOf, if_neg (by omega), if_neg (by omega)]

/-- The function of an offset gives the sequence's bytes, range by range. -/
theorem suffixOf_getElem? (bl : BitVec 64) (j : Nat) : (suffixOf bl)[j]? = suffixByteOf bl j := by
  rw [suffixOf, List.append_assoc, List.singleton_append]
  cases j with
  | zero => rfl
  | succ j =>
    rw [List.getElem?_cons_succ]
    rcases Nat.lt_or_ge j (fillerCount bl).toNat with hfill | hlen
    · rw [suffixByteOf_filler (by omega) hfill, List.getElem?_append_left (by simpa using hfill), zeros,
        List.getElem?_replicate_of_lt hfill]
      rfl
    · rw [suffixByteOf_lengthField (by omega), List.getElem?_append_right (by simpa using hlen),
        zeros_length]
      congr 1
      omega

theorem suffixByteOf_eq_none_iff (bl : BitVec 64) (j : Nat) :
    suffixByteOf bl j = none ↔ (fillerCount bl).toNat + 9 ≤ j := by
  rw [← suffixOf_getElem?, List.getElem?_eq_none_iff, suffixOf_length, padLength_toNat]

/-- `PADBYTE` gives the padded output's bytes, before and behind the end of the input. -/
theorem append_suffixOf_getElem? {input : List Byte} {bl : BitVec 64}
    (h : bitLength input.length = some bl) (i : Nat) :
    (input ++ suffixOf bl)[i]? = paddedByte input i := by
  rw [paddedByte_of_some h, List.getElem?_append, suffixOf_getElem?]

/-! The phases (R30) -/

section
variable {passThrough : Bool} {L : Nat} {bl : BitVec 64} {k : Nat}

theorem phase_eq_msg_iff : phase passThrough L bl k = some .msg ↔ k < suffixBase passThrough L := by
  simp only [phase]
  split_ifs <;> simp <;> omega

theorem phase_eq_marker_iff : phase passThrough L bl k = some .marker ↔ k = suffixBase passThrough L := by
  simp only [phase]
  split_ifs <;> simp <;> omega

theorem phase_eq_fill_iff : phase passThrough L bl k = some .fill ↔
    suffixBase passThrough L + 1 ≤ k ∧ k ≤ suffixBase passThrough L + (fillerCount bl).toNat := by
  simp only [phase]
  split_ifs <;> simp <;> omega

theorem phase_eq_len_iff : phase passThrough L bl k = some .len ↔
    suffixBase passThrough L + (fillerCount bl).toNat + 1 ≤ k ∧
      k ≤ suffixBase passThrough L + (fillerCount bl).toNat + 8 := by
  simp only [phase]
  split_ifs <;> simp <;> omega

theorem phase_eq_done_iff : phase passThrough L bl k = some .done ↔
    k = suffixBase passThrough L + (fillerCount bl).toNat + 9 := by
  simp only [phase]
  split_ifs <;> simp <;> omega

end

/-! The byte-serial formatter (R107) -/

/-- The suffix starts behind the bytes passed through. -/
theorem suffixBase_eq_length (passThrough : Bool) (input : List Byte) :
    suffixBase passThrough input.length = (if passThrough then input else []).length := by
  cases passThrough <;> rfl

/-- Below the base the byte at an index is the input's. -/
theorem getElem?_of_lt_suffixBase {passThrough : Bool} {input : List Byte} {k : Nat}
    (hk : k < suffixBase passThrough input.length) :
    (if passThrough then input else [])[k]? = input[k]? := by
  cases passThrough with
  | false => exact absurd hk (Nat.not_lt_zero k)
  | true => rfl

/-! What a step emits in each phase -/

section
variable {passThrough : Bool} {bl : BitVec 64} {s : State}

theorem serialStep_of_msg {b : Byte} (h : s.mem.idx < suffixBase passThrough s.mem.inp.length)
    (hb : s.mem.inp[s.mem.idx]? = some b) : serialStep passThrough bl s = s.emit b := by
  simp only [serialStep, inputLength, inputByte, phase_eq_msg_iff.mpr h, hb]

theorem serialStep_of_marker (h : s.mem.idx = suffixBase passThrough s.mem.inp.length) :
    serialStep passThrough bl s = s.emit 0x80#8 := by
  simp only [serialStep, inputLength, phase_eq_marker_iff.mpr h, Config.marker]

theorem serialStep_of_fill (hlo : suffixBase passThrough s.mem.inp.length + 1 ≤ s.mem.idx)
    (hhi : s.mem.idx ≤ suffixBase passThrough s.mem.inp.length + (fillerCount bl).toNat) :
    serialStep passThrough bl s = s.emit 0x00#8 := by
  simp only [serialStep, inputLength, phase_eq_fill_iff.mpr ⟨hlo, hhi⟩, Config.fill]

theorem serialStep_of_len
    (hlo : suffixBase passThrough s.mem.inp.length + (fillerCount bl).toNat + 1 ≤ s.mem.idx)
    (hhi : s.mem.idx ≤ suffixBase passThrough s.mem.inp.length + (fillerCount bl).toNat + 8) :
    serialStep passThrough bl s = s.emit
      (lengthByte bl (s.mem.idx - suffixBase passThrough s.mem.inp.length - (fillerCount bl).toNat - 1)) := by
  simp only [serialStep, inputLength, phase_eq_len_iff.mpr ⟨hlo, hhi⟩]

/-- From the base on, a step emits the suffix byte at the offset from the base. -/
theorem serialStep_of_suffixByteOf {b : Byte} {j : Nat}
    (hj : s.mem.idx = suffixBase passThrough s.mem.inp.length + j) (hb : suffixByteOf bl j = some b) :
    serialStep passThrough bl s = s.emit b := by
  have hlt : j < (fillerCount bl).toNat + 9 := by
    by_contra hge
    rw [(suffixByteOf_eq_none_iff bl j).mpr (Nat.le_of_not_lt hge)] at hb
    cases hb
  rcases Nat.eq_zero_or_pos j with rfl | hpos
  · cases hb
    exact serialStep_of_marker hj
  rcases Nat.lt_or_ge (fillerCount bl).toNat j with hlen | hfill
  · rw [suffixByteOf_lengthField hlen, be64_getElem? bl (by omega)] at hb
    cases hb
    rw [serialStep_of_len (by omega) (by omega), hj, Nat.add_sub_cancel_left]
  · rw [suffixByteOf_filler hpos hfill] at hb
    cases hb
    exact serialStep_of_fill (by omega) (by omega)

/-- A step emits the byte that the whole output has at `IDX`, whatever the phase. -/
theorem serialStep_of_getElem? {b : Byte}
    (h : ((if passThrough then s.mem.inp else []) ++ suffixOf bl)[s.mem.idx]? = some b) :
    serialStep passThrough bl s = s.emit b := by
  have hbase := suffixBase_eq_length passThrough s.mem.inp
  rcases Nat.lt_or_ge s.mem.idx (suffixBase passThrough s.mem.inp.length) with hmsg | hsfx
  · rw [List.getElem?_append_left (hbase ▸ hmsg), getElem?_of_lt_suffixBase hmsg] at h
    exact serialStep_of_msg hmsg h
  · rw [List.getElem?_append_right (hbase ▸ hsfx), ← hbase, suffixOf_getElem?] at h
    exact serialStep_of_suffixByteOf (Nat.add_sub_of_le hsfx).symm h

end

/-- Emitting one more byte of a sequence. -/
theorem State.emit_emitAll_take (s : State) {l : List Byte} {k : Nat} (hk : k < l.length) :
    (s.emitAll (l.take k)).emit l[k] = s.emitAll (l.take (k + 1)) := by
  rw [State.emitAll_eq_foldl_emit, State.emitAll_eq_foldl_emit, ← List.take_concat_get' l k hk,
    List.foldl_append]
  rfl

/-- The last step of a run, split off. -/
theorem serialRun_succ (passThrough : Bool) (bl : BitVec 64) (k : Nat) (s : State) :
    serialRun passThrough bl (k + 1) s = serialStep passThrough bl (serialRun passThrough bl k s) := by
  induction k generalizing s with
  | zero => rfl
  | succ k ih => exact ih (serialStep passThrough bl s)

/-- The invariant of the formatter: after `k` steps the first `k` bytes of the output are emitted. -/
theorem serialRun_startOperation (passThrough : Bool) (bl : BitVec 64) (s : State) (k : Nat)
    (hk : k ≤ ((if passThrough then s.mem.inp else []) ++ suffixOf bl).length) :
    serialRun passThrough bl k s.startOperation = s.startOperation.emitAll
      (((if passThrough then s.mem.inp else []) ++ suffixOf bl).take k) := by
  induction k with
  | zero => exact (State.emitAll_nil _).symm
  | succ k ih =>
    have hmem : (serialRun passThrough bl k s.startOperation).mem.idx = k ∧
        (serialRun passThrough bl k s.startOperation).mem.inp = s.mem.inp := by
      rw [ih (Nat.le_of_lt hk), State.emitAll_mem, List.length_take_of_le (Nat.le_of_lt hk)]
      exact ⟨Nat.zero_add k, rfl⟩
    obtain ⟨hidx, hinp⟩ := hmem
    rw [serialRun_succ, serialStep_of_getElem? (by rw [hidx, hinp]; exact List.getElem?_eq_getElem hk),
      ih (Nat.le_of_lt hk), State.emit_emitAll_take _ hk]

end Sys2Proof.Machine

namespace Sys2Proof

open Machine

/-- Settles O43: `suffixByteOf` is the suffix's byte, and its ranges are R106's. -/
theorem suffixByteAtEveryOffset : Obligations.SuffixByteAtEveryOffset := by
  unfold Obligations.SuffixByteAtEveryOffset
  refine ⟨fun L j => ?_, fun L bl j h => ?_⟩
  · cases h : bitLength L with
    | none => simp [suffixByte, suffix, h]
    | some bl => rw [suffixByte_of_some h, suffix_of_some h, Option.bind_some, suffixOf_getElem?]
  · rw [suffixByte_of_some h]
    refine ⟨?_, suffixByteOf_filler, fun hj _ => suffixByteOf_lengthField hj,
      suffixByteOf_eq_none_iff bl j⟩
    rintro rfl
    exact suffixByteOf_zero bl

/-- Settles O46: one lemma per phase. -/
theorem phasesFollowOneAnother : Obligations.PhasesFollowOneAnother := by
  unfold Obligations.PhasesFollowOneAnother
  rintro passThrough L bl base F rfl rfl k
  exact ⟨phase_eq_msg_iff, phase_eq_marker_iff, phase_eq_fill_iff, phase_eq_len_iff, phase_eq_done_iff⟩

/-- Settles O45: the operation's `OUT` is the output whose first `k` bytes `k` steps emit, and `N` is the
index at which the phase becomes DONE. -/
theorem byteSerialFormatterRefinesTheOperation : Obligations.ByteSerialFormatterRefinesTheOperation := by
  unfold Obligations.ByteSerialFormatterRefinesTheOperation
  intro i s bl h
  refine ⟨_, ((if i == .padmsg then s.mem.inp else []) ++ suffixOf bl).length, exec_eq i s, ?_⟩
  rw [State.runOperation_eq_of_some _ h rfl]
  refine ⟨congrArg some (outputLength_eq_length _ _ _), rfl, rfl, fun k hk => ?_⟩
  rw [serialRun_startOperation _ bl s k hk, State.emitAll_mem, phase_eq_done_iff]
  refine ⟨by simpa using hk, rfl, ?_⟩
  rw [suffixBase_eq_length, List.length_append, suffixOf_length, padLength_toNat, Nat.add_assoc]

end Sys2Proof
end

section
/-! The two instructions in contract and out of it (43_operations.md): what each answers, and what can be
read off a padded output. -/

namespace Sys2Proof.Machine

/-- In contract `BL` has a value. -/
theorem exists_bitLength_of_lt {L : Nat} (h : L < 2 ^ 61) : ∃ bl, bitLength L = some bl :=
  ⟨_, bitLength_of_lt h⟩

/-- What an instruction that completes leaves to be read: the response, `OUT` with `N` bytes, and `BL`. -/
theorem exec_of_some {s : State} (i : Instr) {bl : BitVec 64} {out : List Byte}
    (h : bitLength s.mem.inp.length = some bl)
    (hout : out = (if i == .padmsg then s.mem.inp else []) ++ suffixOf bl) :
    ∃ t, exec i s = .next t ∧ t.rsp = some (.ok out) ∧ t.mem.out = out ∧ t.outLen = some out.length ∧
      t.bl = some bl := by
  refine ⟨_, exec_eq i s, ?_⟩
  rw [State.runOperation_eq_of_some _ h hout]
  refine ⟨rfl, rfl, congrArg some ?_, rfl⟩
  rw [outputLength_eq_length, ← hout]

theorem exec_pad_of_some {s : State} {bl : BitVec 64} (h : bitLength s.mem.inp.length = some bl) :
    ∃ p, exec .pad s = .next p ∧ p.rsp = some (.ok (suffixOf bl)) := by
  obtain ⟨p, hp, hrsp, -⟩ := exec_of_some .pad h rfl
  exact ⟨p, hp, hrsp⟩

theorem exec_padmsg_of_some {s : State} {bl : BitVec 64} (h : bitLength s.mem.inp.length = some bl) :
    ∃ m, exec .padmsg s = .next m ∧ m.rsp = some (.ok (s.mem.inp ++ suffixOf bl)) ∧
      m.mem.out = s.mem.inp ++ suffixOf bl ∧ m.outLen = some (s.mem.inp ++ suffixOf bl).length := by
  obtain ⟨m, hm, hrsp, hout, hN, -⟩ := exec_of_some .padmsg h rfl
  exact ⟨m, hm, hrsp, hout, hN⟩

/-- What PADMSG must have been given when its response is OK. -/
theorem exec_padmsg_eq_ok {s t : State} {out : List Byte} (h : exec .padmsg s = .next t)
    (hrsp : t.rsp = some (.ok out)) :
    ∃ bl, bitLength s.mem.inp.length = some bl ∧ out = s.mem.inp ++ suffixOf bl := by
  rw [exec_eq, Host.Outcome.next.injEq] at h
  rw [← h, State.runOperation_rsp, Option.some.injEq] at hrsp
  cases hbl : bitLength s.mem.inp.length with
  | none => rw [answer_of_none _ hbl] at hrsp; cases hrsp
  | some bl =>
    rw [answer_padmsg_of_some hbl, Response.ok.injEq] at hrsp
    exact ⟨bl, rfl, hrsp.symm⟩

/-- Both instructions on an input that overflows (R143). -/
theorem exec_of_ge (i : Instr) {s : State} (h : 2 ^ 61 ≤ s.mem.inp.length) :
    exec i s = .next { s with
      mem := { inp := s.mem.inp, out := [], idx := 0 }
      len := some s.mem.inp.length, ovf := some true
      bl := none, tam := none, fbits := none, fbytes := none, padlen := none, outLen := none
      rsp := some .overflow } := by
  rw [exec_eq, State.runOperation_eq_of_none _ (bitLength_of_ge h)]

/-- PAD answers the suffix of any length that the input has. -/
theorem State.runOperation_false_rsp_of_length {s : State} {n : Nat} {sfx : List Byte}
    (hlen : s.mem.inp.length = n) (h : suffix n = some sfx) :
    (s.runOperation false).rsp = some (.ok sfx) := by
  refine (State.runOperation_rsp .pad s).trans ?_
  rw [answer, hlen, h]

/-! Reading a padded output -/

section
variable {input : List Byte} {bl : BitVec 64}

/-- The padded output is a whole number of blocks (R98). -/
theorem length_append_suffixOf (h : bitLength input.length = some bl) :
    (input ++ suffixOf bl).length = 64 * ((input.length + 72) / 64) := by
  rw [List.length_append, suffixOf_length_of_bitLength h]
  omega

theorem marker_after_input (input : List Byte) (bl : BitVec 64) :
    (input ++ suffixOf bl)[input.length]? = some 0x80#8 := by
  rw [List.getElem?_append_right (Nat.le_refl _), Nat.sub_self, suffixOf_getElem?, suffixByteOf_zero]

/-- The last 8 bytes of a suffix that stands alone. -/
theorem drop_length_sub_eight_suffixOf (bl : BitVec 64) :
    (suffixOf bl).drop ((suffixOf bl).length - 8) = be64 bl :=
  drop_length_sub_eight_append_suffixOf [] bl

theorem beValue_be64_of_bitLength {L : Nat} (h : bitLength L = some bl) : beValue (be64 bl) = 8 * L := by
  rw [beValue_be64, (bitLength_toNat h).2, Nat.mul_comm]

/-- The consumer's rule of R112 inverts the padding. -/
theorem recoverInput_append_suffixOf (h : bitLength input.length = some bl) :
    recoverInput (input ++ suffixOf bl) = input := by
  rw [recoverInput, drop_length_sub_eight_append_suffixOf, beValue_be64_of_bitLength h,
    Nat.mul_div_cancel_left _ (by decide), List.take_left]

end

/-- The upper 32-bit word of the length field is the number its first four bytes spell. -/
theorem beValue_take_four_be64 (bl : BitVec 64) :
    beValue ((be64 bl).take 4) = (bl.extractLsb' 32 32).toNat := by
  have hlt := bl.isLt
  rw [BitVec.extractLsb'_toNat, Nat.shiftRight_eq_div_pow, be64_eq]
  simp only [List.take_succ_cons, List.take_zero, beValue, List.foldl_cons, List.foldl_nil,
    lengthByte_toNat]
  omega

/-- The lower 32-bit word of the length field is the number its last four bytes spell. -/
theorem beValue_drop_four_be64 (bl : BitVec 64) :
    beValue ((be64 bl).drop 4) = (bl.extractLsb' 0 32).toNat := by
  rw [BitVec.extractLsb'_toNat, Nat.shiftRight_zero, be64_eq]
  simp only [List.drop_succ_cons, List.drop_zero, beValue, List.foldl_cons, List.foldl_nil,
    lengthByte_toNat]
  omega

/-- Half of the last 8 bytes. -/
theorem drop_length_sub_four_append_suffixOf (pre : List Byte) (bl : BitVec 64) :
    (pre ++ suffixOf bl).drop ((pre ++ suffixOf bl).length - 4) = (be64 bl).drop 4 := by
  have hlen : 8 ≤ (pre ++ suffixOf bl).length := by
    rw [List.length_append, suffixOf_length, padLength_toNat]
    omega
  rw [← drop_length_sub_eight_append_suffixOf pre bl, List.drop_drop]
  congr 1
  omega

/-- Everything between the marker and the length field is filler (R42). -/
theorem suffixOf_getElem?_filler {bl : BitVec 64} {j : Nat} (hpos : 1 ≤ j)
    (hj : j < (suffixOf bl).length - 8) : (suffixOf bl)[j]? = some 0x00#8 := by
  rw [suffixOf_length, padLength_toNat] at hj
  rw [suffixOf_getElem?, suffixByteOf_filler hpos (by omega)]

end Sys2Proof.Machine

namespace Sys2Proof

open Machine

/-- Settles O18: the final state of an operation that completes with `F` for `FBITS`; the corner cases are
arithmetic in `L mod 64`, and on the empty input nothing precedes the suffix. -/
theorem padmsgGivesTheInputAndTheSuffixOrOverflow :
    Obligations.PadmsgGivesTheInputAndTheSuffixOrOverflow := by
  unfold Obligations.PadmsgGivesTheInputAndTheSuffixOrOverflow
  rintro s L F m rfl hF hm
  refine ⟨fun hlt => ?_, fun hge => ⟨_, exec_of_ge .padmsg hge, rfl, rfl, rfl⟩⟩
  have hbl := bitLength_of_lt hlt
  have htam := totalAfterMarker_of_bitLength hbl
  have hbits : (fillerBits (s.mem.inp.length * 8 + 8)).toNat = F := (toNat_fillerBits _).trans hF.symm
  have hcount := (fillerCount_toNat hbl).trans (congrArg (· / 8) hbits)
  have hpad := (padLength_toNat _).trans (congrArg (· + 9) hcount)
  have hout : m = s.mem.inp ++ suffixOf (BitVec.ofNat 64 (s.mem.inp.length * 8)) := by
    rw [hm, suffixOf_eq, hcount]
    simp only [List.append_assoc]
  have hlen : m.length = s.mem.inp.length + (F / 8 + 9) := by
    rw [hout, List.length_append, suffixOf_length, hpad]
  have hblocks : m.length = 64 * ((s.mem.inp.length + 72) / 64) :=
    hout ▸ length_append_suffixOf hbl
  refine ⟨?_, hlen, by omega, fun hempty => ⟨by omega, ?_⟩, by omega, by omega⟩
  · rw [exec_eq, State.runOperation_eq_of_some _ hbl hout, outputLength, ← hpad, htam, ← hcount, ← hbits]
    simp
  · rw [hout, List.length_eq_zero_iff.mp hempty, List.nil_append, ← List.length_eq_zero_iff.mp hempty]
    exact exec_pad_of_some hbl

/-- Settles O19: `exec_of_ge`. -/
theorem overflowIsTakenAsTheSpecSays : Obligations.OverflowIsTakenAsTheSpecSays := by
  unfold Obligations.OverflowIsTakenAsTheSpecSays
  exact fun i _ h => exec_of_ge i h

/-- Settles O21: the response and `OUT` of either path. -/
theorem statusBitTellsTheOutcome : Obligations.StatusBitTellsTheOutcome := by
  unfold Obligations.StatusBitTellsTheOutcome
  intro i s
  rcases Nat.lt_or_ge s.mem.inp.length (2 ^ 61) with hlt | hge
  · obtain ⟨t, ht, hrsp, hout, hN, -⟩ := exec_of_some i (bitLength_of_lt hlt) rfl
    refine ⟨t, _, ht, hrsp, fun _ => ?_, fun hge => absurd hge (Nat.not_le.mpr hlt)⟩
    rw [hout]
    exact ⟨rfl, hN⟩
  · exact ⟨_, _, exec_of_ge i hge, rfl, fun hlt => absurd hge (Nat.not_le.mpr hlt), fun _ => rfl⟩

/-- Settles O24: equal lengths take the same path, and in contract they have the same `BL`. -/
theorem suffixDependsOnTheLengthAlone : Obligations.SuffixDependsOnTheLengthAlone := by
  unfold Obligations.SuffixDependsOnTheLengthAlone
  intro s s' hlen
  rcases Nat.lt_or_ge s.mem.inp.length (2 ^ 61) with hlt | hge
  · obtain ⟨bl, hbl⟩ := exists_bitLength_of_lt hlt
    obtain ⟨p, hp, hprsp⟩ := exec_pad_of_some hbl
    obtain ⟨p', hp', hprsp'⟩ := exec_pad_of_some (s := s') (hlen ▸ hbl)
    obtain ⟨m, hm, hmrsp, -⟩ := exec_padmsg_of_some hbl
    obtain ⟨m', hm', hmrsp', -⟩ := exec_padmsg_of_some (s := s') (hlen ▸ hbl)
    refine ⟨p, p', m, m', hp, hp', hprsp.trans hprsp'.symm, hm, hm', fun out hout => ⟨_, hmrsp', ?_⟩⟩
    cases hmrsp.symm.trans hout
    exact ⟨by rw [List.drop_left, List.drop_left], List.take_left, List.take_left⟩
  · have hge' := hlen ▸ hge
    exact ⟨_, _, _, _, exec_of_ge .pad hge, exec_of_ge .pad hge', rfl, exec_of_ge .padmsg hge,
      exec_of_ge .padmsg hge', fun _ hout => nomatch hout⟩

/-- Settles O39: both closed forms and minimality are arithmetic on the number of blocks. -/
theorem paddedLengthIsTheLeastBlockMultiple : Obligations.PaddedLengthIsTheLeastBlockMultiple := by
  unfold Obligations.PaddedLengthIsTheLeastBlockMultiple
  intro s hlt
  obtain ⟨bl, hbl⟩ := exists_bitLength_of_lt hlt
  obtain ⟨t, ht, hrsp, -, hN⟩ := exec_padmsg_of_some hbl
  have hlen := length_append_suffixOf hbl
  exact ⟨t, _, ht, hrsp, hN, by omega, by omega, by omega, by omega, fun M hM hfits => by omega⟩

/-- Settles O44: `OUT` is the input and the suffix behind it, whose bytes are `PADBYTE`. -/
theorem paddedByteAtEveryIndex : Obligations.PaddedByteAtEveryIndex := by
  unfold Obligations.PaddedByteAtEveryIndex
  intro s hlt
  obtain ⟨bl, hbl⟩ := exists_bitLength_of_lt hlt
  obtain ⟨t, ht, -, hout, -⟩ := exec_padmsg_of_some hbl
  have hbyte : ∀ i : Nat, t.mem.out[i]? = paddedByte s.mem.inp i := fun i =>
    hout ▸ append_suffixOf_getElem? hbl i
  refine ⟨t, ht, hbyte, fun i hi => ?_, fun i hi => ?_⟩
  · rw [hbyte, paddedByte_of_some hbl, if_pos hi]
  · rw [hbyte, paddedByte_of_some hbl, if_neg (Nat.not_lt.mpr hi), suffixByte_of_some hbl]

/-- Settles O48: both ends of a suffix; the padded output has a byte, the marker, beyond its input. -/
theorem everySuffixHasMarkerAndLength : Obligations.EverySuffixHasMarkerAndLength := by
  unfold Obligations.EverySuffixHasMarkerAndLength
  intro s hlt
  obtain ⟨bl, hbl⟩ := exists_bitLength_of_lt hlt
  obtain ⟨p, hp, hprsp⟩ := exec_pad_of_some hbl
  obtain ⟨m, hm, hmrsp, -⟩ := exec_padmsg_of_some hbl
  refine ⟨p, m, _, _, _, hbl, hp, hprsp, hm, hmrsp, rfl, drop_length_sub_eight_suffixOf _,
    marker_after_input _ _, drop_length_sub_eight_append_suffixOf _ _, fun hmod => ?_, fun heq => ?_⟩
  · rw [suffixOf_length_of_bitLength hbl, hmod]
  · have hmarker := marker_after_input s.mem.inp bl
    rw [heq, List.getElem?_eq_none (Nat.le_refl _)] at hmarker
    cases hmarker

/-- Settles O49: the consumer's rule inverts the padding, and an inverse tells inputs apart. -/
theorem paddedOutputGivesTheInputBack : Obligations.PaddedOutputGivesTheInputBack := by
  unfold Obligations.PaddedOutputGivesTheInputBack
  refine ⟨fun s hlt => ?_, fun s s' t t' out ht ht' hrsp hrsp' => ?_⟩
  · obtain ⟨bl, hbl⟩ := exists_bitLength_of_lt hlt
    obtain ⟨t, ht, hrsp, -⟩ := exec_padmsg_of_some hbl
    exact ⟨t, _, ht, hrsp, recoverInput_append_suffixOf hbl⟩
  · obtain ⟨bl, hbl, hout⟩ := exec_padmsg_eq_ok ht hrsp
    obtain ⟨bl', hbl', hout'⟩ := exec_padmsg_eq_ok ht' hrsp'
    rw [← recoverInput_append_suffixOf hbl, ← hout, hout', recoverInput_append_suffixOf hbl']

/-- Settles O50: the lengths are arithmetic, the layout is read off the two outputs, and an equal input
has the same `BL`. -/
theorem testableProperties : Obligations.TestableProperties := by
  unfold Obligations.TestableProperties
  intro s hlt
  obtain ⟨bl, hbl⟩ := exists_bitLength_of_lt hlt
  obtain ⟨p, hp, hprsp⟩ := exec_pad_of_some hbl
  obtain ⟨m, hm, hmrsp, -⟩ := exec_padmsg_of_some hbl
  have hlen := length_append_suffixOf hbl
  have hsfx := suffixOf_length_of_bitLength hbl
  have hvalue := beValue_be64_of_bitLength hbl
  refine ⟨p, m, _, _, hp, hprsp, hm, hmrsp, by omega, ?_, ?_, by omega, by omega, by omega, by omega,
    rfl, fun j => suffixOf_getElem?_filler, List.take_left, fun s' heq => ?_⟩
  · rw [drop_length_sub_eight_append_suffixOf, hvalue]
  · rw [drop_length_sub_eight_suffixOf, hvalue]
  · rw [← heq] at hbl ⊢
    obtain ⟨p', hp', hprsp'⟩ := exec_pad_of_some hbl
    obtain ⟨m', hm', hmrsp', -⟩ := exec_padmsg_of_some hbl
    exact ⟨p', m', hp', hprsp', hm', hmrsp'⟩

/-- Settles O51: the last 8 bytes of either output are the length field, whose halves are words. -/
theorem lengthFieldInTwoWords : Obligations.LengthFieldInTwoWords := by
  unfold Obligations.LengthFieldInTwoWords
  intro i s hlt
  obtain ⟨t, ht, hrsp, -, -, hbl⟩ := exec_of_some i (bitLength_of_lt hlt) rfl
  refine ⟨t, _, _, ht, hrsp, hbl, ?_⟩
  rw [drop_length_sub_eight_append_suffixOf, drop_length_sub_four_append_suffixOf]
  exact ⟨beValue_be64 _, beValue_take_four_be64 _, beValue_drop_four_be64 _⟩

/-- Settles O52: the marker follows the input, and the blocks are arithmetic. -/
theorem markerAndLengthFieldInTheirBlocks : Obligations.MarkerAndLengthFieldInTheirBlocks := by
  unfold Obligations.MarkerAndLengthFieldInTheirBlocks
  intro s hlt
  obtain ⟨bl, hbl⟩ := exists_bitLength_of_lt hlt
  obtain ⟨t, ht, hrsp, -⟩ := exec_padmsg_of_some hbl
  have hlen := length_append_suffixOf hbl
  exact ⟨t, _, ht, hrsp, marker_after_input _ _, by omega, by omega, by omega, by omega⟩

/-- Settles O53: the first output is a whole number of blocks, and such an input gets one more. -/
theorem paddingAPaddedOutputAddsABlock : Obligations.PaddingAPaddedOutputAddsABlock := by
  unfold Obligations.PaddingAPaddedOutputAddsABlock
  rintro s t s' out ht hrsp rfl hlt
  obtain ⟨bl, hbl, hout⟩ := exec_padmsg_eq_ok ht hrsp
  have hfirst := congrArg List.length hout
  rw [length_append_suffixOf hbl] at hfirst
  obtain ⟨bl', hbl'⟩ := exists_bitLength_of_lt hlt
  obtain ⟨t', ht', hrsp', -⟩ := exec_padmsg_of_some hbl'
  refine ⟨t', _, ht', hrsp', ?_⟩
  rw [length_append_suffixOf hbl']
  omega

/-- Settles O54: the suffix of each length evaluates. -/
theorem sourceVectors : Obligations.SourceVectors := by
  unfold Obligations.SourceVectors
  exact fun s => ⟨_, exec_eq .pad s,
    fun h => State.runOperation_false_rsp_of_length h (by decide),
    fun h => State.runOperation_false_rsp_of_length h (by decide),
    fun h => State.runOperation_false_rsp_of_length h (by decide),
    fun h => State.runOperation_false_rsp_of_length h (by decide),
    fun h => State.runOperation_false_rsp_of_length h (by decide),
    fun h => State.runOperation_false_rsp_of_length h (by decide)⟩

end Sys2Proof
end
